-- ==== Sys2Proof/Word.lean ====
section
/-! DEFINITION. The word types of the engine: bytes of the link, and the 16-bit quantities (00_scope R9, 10_state R21, R31). -/

namespace Sys2Proof

/-- One byte of the SPI link, the unit of every access (20_memory R60). -/
abbrev Byte := BitVec 8

/-- 16 bits: a display dimension (unsigned, R31), a coordinate (two's complement, read with `toInt`, R21) or a timeout
(`TIMEOUT_W` = 16, unsigned, R7). -/
abbrev Half := BitVec 16

end Sys2Proof
end

