-- ==== Sys2Proof/Config.lean ====
section
/-! DEFINITION. What is fixed for the life of one engine (00_scope R7): the values the source gives, the OPEN parameters
as plain data, and the free values: constants without a body, so that no proof can see one. -/

namespace Sys2Proof

namespace Config

/-- Frame header byte, request and response (R7 `HDR`). -/
def hdr : Byte := 0x55
/-- Response status meaning success (R7 `STATUS_OK`). -/
def statusOk : Byte := 0x00
/-- Number of calibration points (R7 `NUM_POINTS`). -/
def numPoints : Nat := 4
/-- Attempts of INIT and of CALSTART (R7 `MAX_ATTEMPTS`). -/
def maxAttempts : Nat := 2
/-- Bytes in one touch packet (R7 `PKT_LEN`). -/
def pktLen : Nat := 5
/-- Mask applied to the pen byte: bit 7 and bit 0 (R7 `PEN_MASK`, R96). -/
def penMask : Byte := 0x81
/-- Right shift of the coordinate scaling (R7 `SCALE_SHIFT`, R235). -/
def scaleShift : Nat := 12
/-- Least legal response length byte (R7 `MIN_RESP_LEN`). -/
def minRespLen : Nat := 2
/-- Most payload bytes a request can carry (R93). -/
def maxReqPayload : Nat := 254
/-- Most payload bytes a response can carry (R93). -/
def maxRespPayload : Nat := 253
/-- Most data bytes one REG_WRITE can carry (R176). -/
def maxRegWriteData : Nat := 251

/-- FREE VALUE. A byte the spec does not fix: what the chip answers once its scripted bytes are used up (R12, U1), and the
payload byte a caller uses that no response carried (R178, U4). Logs 2 and 7. -/
opaque freeByte : Nat → Byte
/-- FREE VALUE. The level the chip drives on the signal line once its scripted levels are used up (R262, U1). Log 2. -/
opaque freeSig : Nat → Bool
/-- FREE VALUE. How many times `Expired()` answers false after one `Arm` (R277 (a), (b)). Log 3. -/
opaque freeCount : Nat → Nat
/-- FREE VALUE. `S.res.err` after an operation that reports failure without an error code (R115). Log 22. -/
opaque freeErr : Nat → BitVec 3
/-- FREE VALUE. `S.res.status` where no rule gives it (R34, R115, R252). Log 22. -/
opaque freeStatus : Nat → Byte
/-- FREE VALUE. `S.res.len` under a tag that carries no payload (R34, R115). Log 22. -/
opaque freeLen : Nat → Byte
/-- FREE VALUE. What an error leaves in `S.resp` (R252, U5 "any value"). Log 34. -/
opaque freeResp : Nat → List Byte
/-- FREE VALUE. The "short-delay" `T_RETRY`, OPEN without a default (R7). Log 28. -/
opaque tRetry : Nat

end Config

/-- The OPEN parameters of R7, as one plain record: a claim that quantifies over it holds for every value. -/
structure Params where
  /-- `STATUS_CANCEL` -/
  statusCancel : Byte
  /-- `T_CMD` -/
  tCmd : Half
  /-- `T_IB`, in microseconds -/
  tIb : Nat
  /-- `T_RETRY` -/
  tRetry : Nat
  /-- `T_DEC` -/
  tDec : Half
  /-- `DUMMY` -/
  dummy : Byte
  /-- `OP_GET_VERSION` -/
  opGetVersion : Byte
  /-- `OP_ENABLE_TOUCH` -/
  opEnableTouch : Byte
  /-- `OP_DISABLE_TOUCH` -/
  opDisableTouch : Byte
  /-- `OP_CALIBRATE_MODE` -/
  opCalibrateMode : Byte
  /-- `OP_REG_READ` -/
  opRegRead : Byte
  /-- `OP_REG_WRITE` -/
  opRegWrite : Byte
  /-- `OP_REG_START` -/
  opRegStart : Byte
  /-- `OP_EEPROM_WRITE` -/
  opEepromWrite : Byte
  /-- `CAL_TYPE` -/
  calType : Byte
  /-- `REG_TOUCH_THRESHOLD` -/
  regTouchThreshold : Byte
  /-- `REG_SENSOR_FILTER` -/
  regSensorFilter : Byte
  /-- `REG_TOUCH_OPTIONS` -/
  regTouchOptions : Byte
  /-- `REG_CAL_INSET` -/
  regCalInset : Byte
  /-- `INSET`, percent*2 (R32) -/
  inset : Byte
  /-- `DUMP_REGS` -/
  dumpRegs : List Byte
  /-- `VERSION_LEN` -/
  versionLen : Byte
  deriving DecidableEq, Repr

/-- The defaults of R7's table. PRESUMED (log 4): R7 marks them general knowledge, but for `T_CMD` (source, approximate),
`DUMMY`, `INSET`, `DUMP_REGS` and `T_DEC` (the spec's own choice). -/
def Params.default : Params where
  statusCancel := 0xFC
  tCmd := 1000
  tIb := 50
  tRetry := Config.tRetry
  tDec := 1000
  dummy := 0x00
  opGetVersion := 0x10
  opEnableTouch := 0x12
  opDisableTouch := 0x13
  opCalibrateMode := 0x14
  opRegRead := 0x20
  opRegWrite := 0x21
  opRegStart := 0x22
  opEepromWrite := 0x23
  calType := 0x04
  regTouchThreshold := 0x02
  regSensorFilter := 0x03
  regTouchOptions := 0x0D
  regCalInset := 0x0E
  inset := 25
  dumpRegs := [0x02, 0x03, 0x0D, 0x0E]
  versionLen := 3

/-- R7: `STATUS_CANCEL` "must differ from `STATUS_OK`". -/
abbrev Params.wf (p : Params) : Prop := p.statusCancel ≠ Config.statusOk

/-- The eight opcode parameters, in the order of the opcode table. -/
def Params.opcodes (p : Params) : List Byte :=
  [p.opGetVersion, p.opEnableTouch, p.opDisableTouch, p.opCalibrateMode,
   p.opRegStart, p.opRegRead, p.opRegWrite, p.opEepromWrite]

/-- No two wire commands share an opcode byte. No rule needs it (R7); only reading a frame's mnemonic back does. -/
abbrev Params.opcodesDistinct (p : Params) : Prop := p.opcodes.Nodup

/-- The delays the engine asks for: `T_IB` and `T_RETRY` (R7, R278). -/
inductive Delay where
  /-- `DLY(T_IB)` -/
  | interByte
  /-- `DLY(T_RETRY)` -/
  | retry
  deriving DecidableEq, Repr

/-- The duration the platform's delay port is asked for (R40 `dly_dur`). -/
def Params.duration (p : Params) : Delay → Nat
  | .interByte => p.tIb
  | .retry => p.tRetry

end Sys2Proof
end

