-- ==== Sys2Proof/Syntax.lean ====
section
/-! DEFINITION. One constructor per row of spec/opcode_table.json. A wire frame and a touch packet are rows of the table, and
so instructions here; the internal micro-operations are the last four. -/

namespace Sys2Proof

/-- The four places bytes come from (30_encoding R90): the host's operation port (format HOP), a request frame (REQ), a
response frame (RSP) and a touch packet (PKT). "Nothing on the wire tells a response frame from a touch packet except
context" (R99), so the place is part of what is decoded. -/
inductive Channel where
  | host | wire | rsp | pkt
  deriving DecidableEq, Repr

/-- The instructions: every row of the opcode table. -/
inductive Instr where
  /-- `GET_VERSION` (R170) -/
  | getVersion
  /-- `ENABLE_TOUCH` (R171) -/
  | enableTouch
  /-- `DISABLE_TOUCH` (R172) -/
  | disableTouch
  /-- `CALIBRATE_MODE` (R173): the payload byte, `CAL_TYPE` wherever an operation sends it (log 35) -/
  | calibrateMode (calType : Byte)
  /-- `REG_START` (R174) -/
  | regStart
  /-- `REG_READ` (R175): physical address and count -/
  | regRead (addr count : Byte)
  /-- `REG_WRITE` (R176): physical address and data; the count is the data's length -/
  | regWrite (addr : Byte) (data : List Byte)
  /-- `EEPROM_WRITE` (R177) -/
  | eepromWrite
  /-- `REQ` (R91): any request frame -/
  | reqFrame (opcode : Byte) (payload : List Byte)
  /-- `RSP` (R92): a response frame with its length byte, status, echoed opcode and payload -/
  | rspFrame (len status opcode : Byte) (payload : List Byte)
  /-- `PKT.PENDOWN` (R95): the ignored bits 6..1 of the pen byte, and the axis bytes -/
  | pktPenDown (ignored : BitVec 6) (xlo xhi ylo yhi : Byte)
  /-- `PKT.PENUP` (R95) -/
  | pktPenUp (ignored : BitVec 6) (xlo xhi ylo yhi : Byte)
  /-- `PKT.INVALID` (R96): bits 6..0 of a pen byte whose bit 7 is clear, and the other four bytes -/
  | pktInvalid (low : BitVec 7) (b1 b2 b3 b4 : Byte)
  /-- `CMD` (R140) -/
  | cmd (opcode : Byte) (payload : List Byte) (capacity : Byte) (hold : Bool)
  /-- `WAITRESP` (R150) -/
  | waitresp (timeout : Half) (hold : Bool)
  /-- `INIT` (R190) -/
  | init (width height : Half) (rotated : Bool)
  /-- `READ` (R240) -/
  | read
  /-- `CALSTART` (R212) -/
  | calstart
  /-- `CALPOINT` (R216) -/
  | calpoint
  /-- `CALWAIT` (R220) -/
  | calwait (timeout : Half)
  /-- `SETREG` (R195) -/
  | setreg (reg value : Byte)
  /-- `REGDUMP` (R197) -/
  | regdump
  /-- reserved select code `0x0` (R110) -/
  | reserved0
  /-- reserved select code `0xA` (R110) -/
  | reservedA
  /-- reserved select code `0xB` (R110) -/
  | reservedB
  /-- reserved select code `0xC` (R110) -/
  | reservedC
  /-- reserved select code `0xD` (R110) -/
  | reservedD
  /-- reserved select code `0xE` (R110) -/
  | reservedE
  /-- reserved select code `0xF` (R110) -/
  | reservedF
  /-- `SELECT` (R130), internal -/
  | select
  /-- `UNSELECT` (R131), internal -/
  | unselect
  /-- `XCHG` (R132), internal -/
  | xchg (out : Byte)
  /-- `DECODE` (R232), triggered -/
  | decode
  deriving DecidableEq, Repr

/-- Where an instruction's encoding comes from; the four internal rows have "encoding: none" (R110). -/
def Instr.channel : Instr → Option Channel
  | .getVersion | .enableTouch | .disableTouch | .calibrateMode _ | .regStart | .regRead _ _ | .regWrite _ _
  | .eepromWrite | .reqFrame _ _ => some .wire
  | .rspFrame _ _ _ _ => some .rsp
  | .pktPenDown _ _ _ _ _ | .pktPenUp _ _ _ _ _ | .pktInvalid _ _ _ _ _ => some .pkt
  | .cmd _ _ _ _ | .waitresp _ _ | .init _ _ _ | .read | .calstart | .calpoint | .calwait _ | .setreg _ _ | .regdump
  | .reserved0 | .reservedA | .reservedB | .reservedC | .reservedD | .reservedE | .reservedF => some .host
  | .select | .unselect | .xchg _ | .decode => none

end Sys2Proof
end

