-- ==== Sys2Proof/WellFormed.lean ====
section
/-! DEFINITION. When an instruction's operands have an encoding (30_encoding R91 to R93, R98; 42_wire_commands R176). -/

namespace Sys2Proof

/-- An instruction has an encoding: a request payload fits the one-byte length field (R93), a REG_WRITE carries 1 to 251 data
bytes (R176), a response frame carries the `L - 2` payload bytes its length byte announces (R92; none when `L < 2`, R101). -/
def Instr.wellFormed : Instr → Bool
  | .regWrite _ data => decide (1 ≤ data.length) && decide (data.length ≤ Config.maxRegWriteData)
  | .reqFrame _ payload => decide (payload.length ≤ Config.maxReqPayload)
  | .rspFrame len _ _ payload => decide (payload.length = len.toNat - 2)
  | .cmd _ payload _ _ => decide (payload.length ≤ Config.maxReqPayload)
  | .getVersion | .enableTouch | .disableTouch | .calibrateMode _ | .regStart | .regRead _ _ | .eepromWrite
  | .pktPenDown _ _ _ _ _ | .pktPenUp _ _ _ _ _ | .pktInvalid _ _ _ _ _
  | .waitresp _ _ | .init _ _ _ | .read | .calstart | .calpoint | .calwait _ | .setreg _ _ | .regdump
  | .reserved0 | .reservedA | .reservedB | .reservedC | .reservedD | .reservedE | .reservedF
  | .select | .unselect | .xchg _ | .decode => true

end Sys2Proof
end

