-- ==== Sys2Proof/Decode.lean ====
section
/-! DEFINITION. The decoder, total on any bytes and refusing by name, and the encoder, both from 30_encoding R90 to R111.
The opcode bytes are parameters (R100), so both take the parameter record. -/

namespace Sys2Proof

/-- Why bytes are no encoding. Raised by `decode` only; safe (the model then gives the bytes no meaning). -/
inductive DecodeError where
  /-- fewer bytes than the format needs -/
  | truncated
  /-- the host word's first byte is no 4-bit select code (R110) -/
  | selectCode
  /-- a one-bit operand byte is neither 0 nor 1 (log 10) -/
  | oneBitOperand
  /-- a CMD payload length above 254 (R93, R140) -/
  | payloadTooLong
  /-- the frame's first byte is not `0x55` (R91, R92) -/
  | header
  /-- a request's length byte is 0: it counts at least the opcode (R91) -/
  | requestLength
  deriving DecidableEq, Repr

/-- What decoding answers: the instruction and the bytes after it, or a rejection by name. -/
inductive Decoded where
  | ok (i : Instr) (rest : List Byte)
  | error (e : DecodeError)
  deriving DecidableEq, Repr

/-- The instruction, where there is one. -/
def Decoded.instr? : Decoded → Option Instr
  | .ok i _ => some i
  | .error _ => none

/-! ## The host operation port (format HOP, R110, R111)

The spec fixes the 4-bit select code and each operand's width; the byte layout of the operands is the model's (DESIGN CHOICE,
log 10): the select code in a byte, then the operands in R111's order, 16 bits high byte first (as program P1 writes them),
one bit in a byte of its own, a payload after a byte that counts it. -/

/-- A one-bit operand. -/
def bitByte (b : Bool) : Byte := if b then 1 else 0

/-- The high byte of a 16-bit operand. -/
def hiByte (h : Half) : Byte := h.extractLsb' 8 8
/-- The low byte of a 16-bit operand. -/
def loByte (h : Half) : Byte := h.extractLsb' 0 8
/-- 16 bits from their high and low byte. -/
def halfOf (hi lo : Byte) : Half := hi ++ lo

/-- Reads a one-bit operand and finishes an instruction with it. -/
def withBit (b : Byte) (rest : List Byte) (f : Bool → Instr) : Decoded :=
  if b = 0 then .ok (f false) rest else if b = 1 then .ok (f true) rest else .error .oneBitOperand

/-- CMD's operands: opcode, payload (counted), capacity, hold (R111). -/
def decodeCmd : List Byte → Decoded
  | opcode :: n :: r =>
    if Config.maxReqPayload < n.toNat then .error .payloadTooLong
    else match r.drop n.toNat with
      | capacity :: hold :: rest => withBit hold rest (.cmd opcode (r.take n.toNat) capacity)
      | _ => .error .truncated
  | _ => .error .truncated

/-- INIT's operands: width, height, rotated (R111). -/
def decodeInit : List Byte → Decoded
  | w1 :: w0 :: h1 :: h0 :: rot :: rest => withBit rot rest (.init (halfOf w1 w0) (halfOf h1 h0))
  | _ => .error .truncated

/-- WAITRESP's operands: timeout, hold (R111). -/
def decodeWaitresp : List Byte → Decoded
  | t1 :: t0 :: hold :: rest => withBit hold rest (.waitresp (halfOf t1 t0))
  | _ => .error .truncated

/-- CALWAIT's operand: timeout (R111). -/
def decodeCalwait : List Byte → Decoded
  | t1 :: t0 :: rest => .ok (.calwait (halfOf t1 t0)) rest
  | _ => .error .truncated

/-- SETREG's operands: reg, value (R111). -/
def decodeSetreg : List Byte → Decoded
  | reg :: value :: rest => .ok (.setreg reg value) rest
  | _ => .error .truncated

/-- A word at the operation port, by its select code (R110). -/
def decodeHost : List Byte → Decoded
  | [] => .error .truncated
  | code :: r =>
    match code.toNat with
    | 0x0 => .ok .reserved0 r
    | 0x1 => decodeCmd r
    | 0x2 => decodeWaitresp r
    | 0x3 => decodeInit r
    | 0x4 => .ok .read r
    | 0x5 => .ok .calstart r
    | 0x6 => .ok .calpoint r
    | 0x7 => decodeCalwait r
    | 0x8 => decodeSetreg r
    | 0x9 => .ok .regdump r
    | 0xA => .ok .reservedA r
    | 0xB => .ok .reservedB r
    | 0xC => .ok .reservedC r
    | 0xD => .ok .reservedD r
    | 0xE => .ok .reservedE r
    | 0xF => .ok .reservedF r
    | _ => .error .selectCode

/-! ## Request frames (format REQ, R91, R100) -/

/-- Which wire command a request's opcode and payload are (R100's table, in the opcode table's order); a request that is none
of the eight is the generic frame. Any one payload byte with `OP_CALIBRATE_MODE` is CALIBRATE_MODE, `CAL_TYPE` or not: the table's
row leaves the byte free, R100 and R173 name `CAL_TYPE` alone (DESIGN CHOICE, log 35). Where opcode parameters hold the same byte,
which R7 does not forbid, a frame without a payload is the first of the order below (DESIGN CHOICE, log 37). -/
def classify (p : Params) (opcode : Byte) (payload : List Byte) : Instr :=
  match payload with
  | [] =>
    if opcode = p.opGetVersion then .getVersion
    else if opcode = p.opEnableTouch then .enableTouch
    else if opcode = p.opDisableTouch then .disableTouch
    else if opcode = p.opRegStart then .regStart
    else if opcode = p.opEepromWrite then .eepromWrite
    else .reqFrame opcode []
  | [t] => if opcode = p.opCalibrateMode then .calibrateMode t else .reqFrame opcode [t]
  | [hi, addr] => .reqFrame opcode [hi, addr]
  | hi :: addr :: n :: data =>
    if opcode = p.opRegRead ∧ hi = 0 ∧ data = [] then .regRead addr n
    else if opcode = p.opRegWrite ∧ hi = 0 ∧ data ≠ [] ∧ data.length = n.toNat then .regWrite addr data
    else .reqFrame opcode (hi :: addr :: n :: data)

/-- A request frame (R91): header, length byte, opcode, payload. -/
def decodeWire (p : Params) : List Byte → Decoded
  | h :: len :: opcode :: r =>
    if h ≠ Config.hdr then .error .header
    else if len.toNat = 0 then .error .requestLength
    else if r.length < len.toNat - 1 then .error .truncated
    else .ok (classify p opcode (r.take (len.toNat - 1))) (r.drop (len.toNat - 1))
  | _ => .error .truncated

/-- A response frame (R92): header, length byte, status, echoed opcode, payload. -/
def decodeRsp : List Byte → Decoded
  | h :: len :: status :: opcode :: r =>
    if h ≠ Config.hdr then .error .header
    else if r.length < len.toNat - 2 then .error .truncated
    else .ok (.rspFrame len status opcode (r.take (len.toNat - 2))) (r.drop (len.toNat - 2))
  | _ => .error .truncated

/-- A touch packet (R95, R96): the class by bits 7 and 0 of the pen byte. -/
def decodePkt : List Byte → Decoded
  | pen :: b1 :: b2 :: b3 :: b4 :: rest =>
    if pen.getLsbD 7 = false then .ok (.pktInvalid (pen.extractLsb' 0 7) b1 b2 b3 b4) rest
    else if pen.getLsbD 0 = true then .ok (.pktPenDown (pen.extractLsb' 1 6) b1 b2 b3 b4) rest
    else .ok (.pktPenUp (pen.extractLsb' 1 6) b1 b2 b3 b4) rest
  | _ => .error .truncated

/-- The decoder: total on any bytes at any of the four places. -/
def decode (p : Params) : Channel → List Byte → Decoded
  | .host => decodeHost
  | .wire => decodeWire p
  | .rsp => decodeRsp
  | .pkt => decodePkt

/-! ## The encoder -/

/-- The bytes of a request frame (R91). -/
def requestFrame (opcode : Byte) (payload : List Byte) : List Byte :=
  Config.hdr :: BitVec.ofNat 8 (payload.length + 1) :: opcode :: payload

/-- The payload of a REG_READ (R175). -/
def regReadPayload (addr count : Byte) : List Byte := [0x00, addr, count]

/-- The payload of a REG_WRITE (R176). -/
def regWritePayload (addr : Byte) (data : List Byte) : List Byte :=
  0x00 :: addr :: BitVec.ofNat 8 data.length :: data

/-- The pen byte of a pen-down packet (R96). -/
def penDownByte (ignored : BitVec 6) : Byte := 1#1 ++ ignored ++ 1#1
/-- The pen byte of a pen-up packet (R96). -/
def penUpByte (ignored : BitVec 6) : Byte := 1#1 ++ ignored ++ 0#1
/-- A pen byte with bit 7 clear (R96). -/
def penInvalidByte (low : BitVec 7) : Byte := 0#1 ++ low

/-- The bytes of an instruction; the four internal rows have none (R110). -/
def encode (p : Params) : Instr → List Byte
  | .getVersion => requestFrame p.opGetVersion []
  | .enableTouch => requestFrame p.opEnableTouch []
  | .disableTouch => requestFrame p.opDisableTouch []
  | .calibrateMode t => requestFrame p.opCalibrateMode [t]
  | .regStart => requestFrame p.opRegStart []
  | .regRead addr count => requestFrame p.opRegRead (regReadPayload addr count)
  | .regWrite addr data => requestFrame p.opRegWrite (regWritePayload addr data)
  | .eepromWrite => requestFrame p.opEepromWrite []
  | .reqFrame opcode payload => requestFrame opcode payload
  | .rspFrame len status opcode payload => Config.hdr :: len :: status :: opcode :: payload
  | .pktPenDown ignored xlo xhi ylo yhi => [penDownByte ignored, xlo, xhi, ylo, yhi]
  | .pktPenUp ignored xlo xhi ylo yhi => [penUpByte ignored, xlo, xhi, ylo, yhi]
  | .pktInvalid low b1 b2 b3 b4 => [penInvalidByte low, b1, b2, b3, b4]
  | .cmd opcode payload capacity hold =>
      [0x01, opcode, BitVec.ofNat 8 payload.length] ++ payload ++ [capacity, bitByte hold]
  | .waitresp timeout hold => [0x02, hiByte timeout, loByte timeout, bitByte hold]
  | .init width height rotated =>
      [0x03, hiByte width, loByte width, hiByte height, loByte height, bitByte rotated]
  | .read => [0x04]
  | .calstart => [0x05]
  | .calpoint => [0x06]
  | .calwait timeout => [0x07, hiByte timeout, loByte timeout]
  | .setreg reg value => [0x08, reg, value]
  | .regdump => [0x09]
  | .reserved0 => [0x00]
  | .reservedA => [0x0A]
  | .reservedB => [0x0B]
  | .reservedC => [0x0C]
  | .reservedD => [0x0D]
  | .reservedE => [0x0E]
  | .reservedF => [0x0F]
  | .select | .unselect | .xchg _ | .decode => []

/-- Well-formed and, for a generic request frame, not one of the eight commands: the instructions that decoding gives. -/
def Instr.canonical (p : Params) (i : Instr) : Bool :=
  i.wellFormed &&
    (match i with
     | .reqFrame opcode payload => decide (classify p opcode payload = .reqFrame opcode payload)
     | _ => true)

/-! ## The opcode table's numbers

The table numbers a row's bytes as one number, "first byte in the most significant position" (its own notes), and a select
code in its low 4 bits. Which format a number is in is told by its width (log 11). -/

/-- The `n` bytes of a table number, first byte most significant. -/
def tableBytes (n w : Nat) : List Byte := (List.range n).map fun j => BitVec.ofNat 8 (w >>> (8 * (n - 1 - j)))

/-- The place a table number of a given width comes from: up to 8 bits the operation port, 40 bits a touch packet, 32 bits
with a clear third byte (the row's `STATUS_OK`) a response frame, anything else a request frame. -/
def tableChannel (nbits w : Nat) : Channel :=
  if nbits ≤ 8 then .host
  else if nbits = 40 then .pkt
  else if nbits = 32 ∧ (w >>> 8) % 256 = 0 then .rsp
  else .wire

/-- How many operand bytes the format can still need after a table number's own bytes: the port's fixed operands and its
counted payload, or what the frame's length byte announces. -/
def operandBytes (ch : Channel) (bytes : List Byte) : Nat :=
  match ch with
  | .host => 5 + (bytes.getD 2 0).toNat
  | .wire | .rsp => (bytes.getD 1 0).toNat
  | .pkt => 0

/-- A table row's bytes, with the operand bytes above them zero. -/
def tableWord (nbits w : Nat) : List Byte :=
  let bytes := tableBytes ((nbits + 7) / 8) w
  bytes ++ List.replicate (operandBytes (tableChannel nbits w) bytes) 0

/-- The instruction the decoder reads from a table row's number, with the default opcode bytes the table itself uses. -/
def decodeTableWord (nbits w : Nat) : Option Instr :=
  (decode Params.default (tableChannel nbits w) (tableWord nbits w)).instr?

end Sys2Proof
end

