-- ==== Sys2Proof/Machine/State.lean ====
section
/-! DEFINITION. The engine's state as plain data: every register of 10_state, the parameters of 00_scope R7, the answers of
the agents outside the engine (R12, R35), and the observable record (R11). -/

namespace Sys2Proof.Machine

/-- A TouchCoordinate (R21): `x`, `y` are int16, read with `toInt`. -/
structure Coord where
  x : Half
  y : Half
  touched : Bool
  deriving DecidableEq, Repr

/-- The six errors of the engine (R250). They are results handed to the caller, not faults of the machine. -/
inductive ProtocolError where
  | noHeader
  | invalidLength
  | invalidResponseOpcode
  | responseTooLarge
  | timeout
  | chipStatus (code : Byte)
  deriving DecidableEq, Repr

/-- What a framing operation answers its caller: `Ok(payload)` or `Err(e)` (R111, R256, R257). -/
inductive Reply where
  | ok (payload : List Byte)
  | err (e : ProtocolError)
  deriving DecidableEq, Repr

/-- `S.res` (R34, R115): one value per tag with the fields that tag gives a meaning (log 22). -/
inductive Result where
  /-- `T_OK` -/
  | ok
  /-- `T_PAYLOAD`, `S.res.payload[0 .. S.res.len-1]` -/
  | payload (p : List Byte)
  /-- `T_ERR`, `S.res.err` and, for `ChipStatus`, `S.res.status` -/
  | err (e : ProtocolError)
  /-- `T_TRUE`, `T_FALSE` -/
  | bool (b : Bool)
  /-- `T_COORD` -/
  | coord (c : Coord)
  /-- `T_NONEW` -/
  | noNew
  /-- `T_NOTREADY` -/
  | notReady
  /-- `T_POINT` -/
  | point (x y : Half)
  /-- `T_NONE`, the failure of CALPOINT or CALWAIT -/
  | none
  /-- `T_MORE`, `S.res.more` -/
  | more (b : Bool)
  deriving DecidableEq, Repr

/-- `S.op` (R25): an operation mnemonic of R110 or NONE. -/
inductive OpName where
  | none | select | unselect | xchg | cmd | waitresp | init | read | calstart | calpoint | calwait | setreg | regdump | decode
  deriving DecidableEq, Repr

/-- `S.seq` (R26). -/
inductive Seq where
  | idle
  | tx (k : Nat)
  | wait
  | rxHdr
  | rxLen
  | rxStatus
  | rxOpcode
  | rxPayload (k : Nat)
  | done
  | fail (e : ProtocolError)
  | pkt (k : Nat)
  deriving DecidableEq, Repr

/-- One event of the trace (R11). -/
inductive Event where
  /-- `SEL` -/
  | sel
  /-- `UNSEL` -/
  | unsel
  /-- `X(out, in)` -/
  | xchg (out inp : Byte)
  /-- `DLY(d)` -/
  | dly (d : Delay)
  /-- `ARM(d)` -/
  | arm (d : Half)
  /-- `EXP?(b)` -/
  | expq (b : Bool)
  /-- `SIG?(b)` -/
  | sigq (b : Bool)
  /-- `RET(op, result)`; REGDUMP has no result to the host (R111) -/
  | ret (op : OpName) (r : Option Result)
  deriving DecidableEq, Repr

/-- What REGDUMP hands to the diagnostic sink (R197). -/
inductive SinkItem where
  | offset (b : Byte)
  | reply (r : Reply)
  deriving DecidableEq, Repr

/-- The transient registers of R33 (`S.req` .. `S.retried`), and two operand latches of the model (log 26). -/
structure Transient where
  req : List Byte
  resp : List Byte
  /-- `S.L` -/
  len : Byte
  expOp : Byte
  cap : Byte
  hold : Bool
  /-- the index of the byte being sent or received, its low 8 bits (log 26) -/
  k : Byte
  pkt : List Byte
  /-- which sub-operation of a composite operation is running; the numbers are the model's (log 36) -/
  step : BitVec 3
  attempt : BitVec 2
  retried : Bool
  /-- the timeout of the wait in progress, and CALWAIT's operand (R81, R221) -/
  tmo : Half
  /-- the registers REGDUMP has still to read (R197) -/
  todo : List Byte
  deriving DecidableEq, Repr

/-- The answers of the agents outside the engine (R12): what is fixed of them, then free draws (logs 2 and 3). -/
structure Env where
  /-- the bytes the chip will answer next in a response or a packet, in order (H-a of R37, R67) -/
  rx : List Byte
  /-- the bytes the chip will answer next while a request is sent to it (R132, D5; log 8) -/
  echo : List Byte
  /-- the levels the next polls of the signal line will see (H-e of R37) -/
  sig : List Bool
  /-- for each `Arm` to come, how often the timer then answers false (R277) -/
  counts : List Nat
  /-- how often the timer, as last armed, will still answer false (H-f of R37); what it is before the first `Arm` no rule gives
  and no operation reads (log 3) -/
  timer : Nat
  /-- how many free values have been drawn -/
  draws : Nat
  deriving DecidableEq, Repr

/-- What comes to the engine from outside (R35): a program is a list of these (log 12). -/
inductive Stimulus where
  /-- bytes at one of the four places: a host operation, a request frame handed to the framing engine, a response frame or a
  touch packet the chip offers; the operation runs as one step -/
  | word (ch : Channel) (bytes : List Byte)
  /-- a host operation that then runs event by event, as R26 lists the events -/
  | start (bytes : List Byte)
  /-- the signal line may start DECODE now (R231) -/
  | trigger
  /-- the same, event by event -/
  | startTrigger
  /-- an external reset (R290) -/
  | reset
  deriving DecidableEq, Repr

/-- The engine. Field by field against INVENTORY.md's list. -/
structure State where
  /-- `S.cs`, true when chip-select is asserted (R27) -/
  cs : Bool
  /-- `S.initialized` (R28) -/
  initialized : Bool
  /-- `S.current` (R21) -/
  current : Coord
  /-- `S.lastReported` (R21) -/
  lastReported : Coord
  /-- `S.pointIndex` (R22) -/
  pointIndex : BitVec 3
  /-- `S.offset` (R23) -/
  offset : Byte
  /-- `S.width` (R31) -/
  width : Half
  /-- `S.height` (R31) -/
  height : Half
  /-- `S.rotated` (R31) -/
  rotated : Bool
  /-- `S.seq` (R26) -/
  seq : Seq
  /-- `S.op` (R25) -/
  op : OpName
  /-- `S.res` (R34) -/
  res : Result
  /-- the transient registers (R33) -/
  t : Transient
  /-- the parameters (R7), written by no operation (R30, R32) -/
  cfg : Params
  /-- MODEL: the oracle's answers (R12, R35) -/
  env : Env
  /-- MODEL: the stimuli not yet taken (R35) -/
  inputs : List Stimulus
  /-- MODEL: the event trace, newest first (R11) -/
  trace : List Event
  /-- MODEL: what the diagnostic sink was handed, newest first (R197) -/
  sink : List SinkItem
  deriving DecidableEq, Repr

/-- What stops the machine. -/
inductive Fault where
  /-- `Xchg` with chip-select deasserted: R132 requires `S.cs = 1`, and "no rule of the spec reaches it" (vector VX6). Raised by
  XCHG only. Safe: the model stops where the spec permits nothing (log 21). -/
  | xchgUnselected
  deriving DecidableEq, Repr

/-- What the model gives no meaning. -/
inductive Refusal where
  /-- An instruction without a meaning yet; raised by exec's arms only. Safe. -/
  | notModelled (mnemonic : String)
  /-- A request payload over 254 bytes: R140 "the model gives it no meaning". Raised by CMD and REQ. Safe (log 16). -/
  | payloadTooLong
  /-- A REG_WRITE whose count is outside 1..251 (R176, U8). Raised by REG_WRITE. Safe (log 16). -/
  | regWriteCount
  /-- A bus operation while a calibration is active: R301 "a model should refuse such a run". Raised by CMD, WAITRESP, INIT,
  SETREG, REGDUMP, the eight wire commands and REQ. Safe (log 15). -/
  | calibrationHeld
  /-- Bytes at the host port or handed to the framing engine as a request that are no encoding: the port has a 4-bit select code
  and operands of fixed widths (R110, R111), and the engine builds every request frame itself (R91, R99). Raised by step; bytes
  from the chip are never refused. Safe (log 10). -/
  | noEncoding (e : DecodeError)
  deriving DecidableEq, Repr

/-- Every transient register at the value the model names (R33: unspecified; log 5). -/
def Transient.reset : Transient where
  req := []
  resp := []
  len := 0
  expOp := 0
  cap := 0
  hold := false
  k := 0
  pkt := []
  step := 0
  attempt := 0
  retried := false
  tmo := 0
  todo := []

/-- No answer fixed yet: every answer of the chip and the timer is a free draw. The timer's count before the first `Arm` (R37,
R276 give none) is 0, that is, already expired: DESIGN CHOICE, log 3. -/
def Env.reset : Env where
  rx := []
  echo := []
  sig := []
  counts := []
  timer := 0
  draws := 0

/-- The coordinate both touch registers reset to (R39, D38; log 6). -/
def Coord.reset : Coord where
  x := 0
  y := 0
  touched := false

/-- The engine right after reset (R39, R291), with the default parameters (log 4). `offset`, `width`, `height`, `rotated`,
`res` and the transient registers are unspecified there; the values are log 5's. -/
def State.reset : State where
  cs := false
  initialized := false
  current := Coord.reset
  lastReported := Coord.reset
  pointIndex := 5
  offset := 0
  width := 0
  height := 0
  rotated := false
  seq := .idle
  op := .none
  res := .ok
  t := Transient.reset
  cfg := Params.default
  env := Env.reset
  inputs := []
  trace := []
  sink := []

end Sys2Proof.Machine
end

