-- ==== Sys2Proof/Machine/Flags.lean ====
section
/-! DEFINITION. The one-bit facts the rules compute: the operating mode and its masks (60_exceptions R263, R270), the pen state
(30_encoding R96), the change test of READ (45_touch R240), the error codes and the result port (R251, R115), the output ports
(10_state R40). -/

namespace Sys2Proof.Machine

/-- The operating modes (R270). -/
inductive Mode where
  | uninitialized | ready | calibrating
  deriving DecidableEq, Repr

/-- `S.pointIndex <= 3`: the sequencer state `Active(pointIndex)` (R22, R210). Values 6 and 7 count as 5. -/
def State.active (s : State) : Bool := decide (s.pointIndex.toNat < Config.numPoints)

/-- The operating mode, a function of persistent state (R270). -/
def State.mode (s : State) : Mode :=
  if s.initialized = false then .uninitialized else if s.active then .calibrating else .ready

/-- Output port `busy` (R40): an operation is in progress. -/
def State.busy (s : State) : Bool := decide (s.seq ≠ .idle)

/-- Output port `cs_n` (R40): low when `S.cs = 1`. -/
def State.csN (s : State) : Bool := !s.cs

/-- DECODE is enabled (R231, R263), apart from the line's level, which DECODE itself polls. -/
def State.decodeEnabled (s : State) : Bool := !s.busy && s.initialized && !s.active

/-- The pen state of a pen byte; `none` is an invalid sample (R96). -/
def penState (pen : Byte) : Option Bool :=
  if pen &&& Config.penMask = 0x81 then some true
  else if pen &&& Config.penMask = 0x80 then some false
  else none

/-- "compared by value for de-duplication" (R21, R240). -/
def Coord.same (a b : Coord) : Bool := a.x == b.x && a.y == b.y && a.touched == b.touched

/-- The reply is an error (R147). -/
def Reply.isErr : Reply → Bool
  | .ok _ => false
  | .err _ => true

/-- The error code of R251. -/
def ProtocolError.code : ProtocolError → BitVec 3
  | .noHeader => 1
  | .invalidLength => 2
  | .invalidResponseOpcode => 3
  | .responseTooLarge => 4
  | .timeout => 5
  | .chipStatus _ => 6

/-- `Finish`'s `S.res <- r` (R147): CMD and WAITRESP report `Ok(payload)` with the tag that carries a payload (log 24). -/
def Result.ofReply : Reply → Result
  | .ok p => .payload p
  | .err e => .err e

/-- SETREG's result: "Ok[] becomes Ok" (R195). -/
def Result.ofSetreg : Reply → Result
  | .ok _ => .ok
  | .err e => .err e

/-- The tags of R115. -/
inductive Tag where
  | ok | payload | err | true | false | coord | noNew | notReady | point | none | more
  deriving DecidableEq, Repr

/-- `S.res.tag` (R115). -/
def Result.tag : Result → Tag
  | .ok => .ok
  | .payload _ => .payload
  | .err _ => .err
  | .bool b => if b then .true else .false
  | .coord _ => .coord
  | .noNew => .noNew
  | .notReady => .notReady
  | .point _ _ => .point
  | .none => .none
  | .more _ => .more

/-- `S.res.err` (R251). After INIT, CALSTART, CALPOINT and CALWAIT it is unspecified (R115): a free value. -/
def State.resErr (s : State) : BitVec 3 :=
  match s.res with
  | .err e => e.code
  | .ok | .payload _ | .coord _ | .noNew | .notReady => 0
  | .bool _ | .point _ _ | .none | .more _ => Config.freeErr s.env.draws

/-- `S.res.status`: the raw chip status of a `ChipStatus` error (R252); no rule gives it otherwise, so a free value. -/
def State.resStatus (s : State) : Byte :=
  match s.res with
  | .err (.chipStatus c) => c
  | _ => Config.freeStatus s.env.draws

/-- `S.res.len` (R115): the length of the payload; no rule gives it under another tag, so a free value there. -/
def State.resLen (s : State) : Byte :=
  match s.res with
  | .payload p => BitVec.ofNat 8 p.length
  | _ => Config.freeLen s.env.draws

end Sys2Proof.Machine
end

