-- ==== Sys2Proof/Machine/Operands.lean ====
section
/-! DEFINITION. The operand forms and the arithmetic of the engine: register addresses (20_memory R74), raw axes and scaling
(30_encoding R97, 45_touch R235 to R238), the calibration corners (44_calibration R216, R217). -/

namespace Sys2Proof.Machine

/-- `phys(r) = trunc_8(r + S.offset)` (R74). -/
def phys (offset reg : Byte) : Byte := reg + offset

/-- A raw axis value, 14 bits (R97); bit 7 of both bytes is masked off (D35). -/
def rawAxis (lo hi : Byte) : Nat := ((hi &&& 0x7F).toNat <<< 7) ||| (lo &&& 0x7F).toNat

/-- `floor(raw * dimension / 4096)`, exact (R235). -/
def scale (raw : Nat) (dim : Half) : Nat := (raw * dim.toNat) >>> Config.scaleShift

/-- `trunc_16`, the pattern an int16 is stored as (R236, R238). -/
def trunc16 (n : Nat) : Half := BitVec.ofNat 16 n

/-- The coordinate a valid packet stores (R233): scaled, and with the two scaled values exchanged when rotated (R237). -/
def packetCoord (width height : Half) (rotated touched : Bool) (xlo xhi ylo yhi : Byte) : Coord :=
  let sx := trunc16 (scale (rawAxis xlo xhi) width)
  let sy := trunc16 (scale (rawAxis ylo yhi) height)
  if rotated then { x := sy, y := sx, touched := touched } else { x := sx, y := sy, touched := touched }

/-- The margin on each side: `floor(dimension * INSET / 400)` (R217). -/
def margin (dim : Half) (inset : Byte) : Nat := dim.toNat * inset.toNat / 400

/-- The corner of a calibration index, in the order top-left, top-right, bottom-right, bottom-left (R216); none when the index
is not active. -/
def corner (pointIndex : BitVec 3) (width height : Half) (inset : Byte) : Option (Half × Half) :=
  let mx := margin width inset
  let my := margin height inset
  match pointIndex.toNat with
  | 0 => some (trunc16 mx, trunc16 my)
  | 1 => some (trunc16 (width.toNat - mx), trunc16 my)
  | 2 => some (trunc16 (width.toNat - mx), trunc16 (height.toNat - my))
  | 3 => some (trunc16 mx, trunc16 (height.toNat - my))
  | _ => none

end Sys2Proof.Machine
end

