-- ==== Sys2Proof/Machine/Ops.lean ====
section
/-! DEFINITION. The shared operations: named writes of each register, the three interactions with the outside (bytes, signal
line, timer), the transport (40_transport), the framing engine (41_framing), and, as the engine's one way to take and to leave
an error, `finish` and `ret` (60_exceptions R256, R257). Every meaning is built from these. -/

namespace Sys2Proof.Machine

/-! ## Register writes -/

def State.setCs (s : State) (b : Bool) : State := { s with cs := b }
def State.setInitialized (s : State) (b : Bool) : State := { s with initialized := b }
def State.setCurrent (s : State) (c : Coord) : State := { s with current := c }
def State.setLastReported (s : State) (c : Coord) : State := { s with lastReported := c }
def State.setPointIndex (s : State) (i : BitVec 3) : State := { s with pointIndex := i }
def State.setOffset (s : State) (b : Byte) : State := { s with offset := b }
def State.setDisplay (s : State) (w h : Half) (r : Bool) : State := { s with width := w, height := h, rotated := r }
def State.setSeq (s : State) (q : Seq) : State := { s with seq := q }
def State.setOp (s : State) (o : OpName) : State := { s with op := o }
def State.setRes (s : State) (r : Result) : State := { s with res := r }
def State.setT (s : State) (t : Transient) : State := { s with t := t }
def State.setEnv (s : State) (e : Env) : State := { s with env := e }
def State.setInputs (s : State) (l : List Stimulus) : State := { s with inputs := l }
/-- An event happens (R11). -/
def State.emit (s : State) (e : Event) : State := { s with trace := e :: s.trace }
/-- `sink <- v` (R197). -/
def State.sinkPut (s : State) (v : SinkItem) : State := { s with sink := v :: s.sink }

/-! ## The agents outside the engine (R12) -/

/-- A value the spec leaves unspecified: a free draw (R178). -/
def freeByte (s : State) : Byte × State :=
  (Config.freeByte s.env.draws, s.setEnv { s.env with draws := s.env.draws + 1 })

/-- What an exchange is part of: a request the engine sends, or a response or packet it receives (R132's two corner cases). -/
inductive Phase where
  | sending | receiving
  deriving DecidableEq, Repr

/-- The byte the chip answers on an exchange (R132), a draw of the oracle: the next one scripted for the phase, else a free draw.
An exchange "during a response or packet consumes one byte from the chip" (R67); one during a request does not (log 8). -/
def chipByte (phase : Phase) (s : State) : Byte × State :=
  match phase with
  | .receiving =>
    match s.env.rx with
    | b :: r => (b, s.setEnv { s.env with rx := r })
    | [] => freeByte s
  | .sending =>
    match s.env.echo with
    | b :: r => (b, s.setEnv { s.env with echo := r })
    | [] => freeByte s

/-- The level the chip drives at a poll (R262), without the event. -/
def chipSig (s : State) : Bool × State :=
  match s.env.sig with
  | b :: r => (b, s.setEnv { s.env with sig := r })
  | [] => (Config.freeSig s.env.draws, s.setEnv { s.env with draws := s.env.draws + 1 })

/-- `Sig()` (R262): one poll of the signal line. -/
def pollSig (s : State) : Bool × State :=
  let p := chipSig s
  (p.1, p.2.emit (.sigq p.1))

/-- The timer takes a duration: it will answer false some finite number of times and then true (R277), without the event. -/
def loadTimer (s : State) : State :=
  match s.env.counts with
  | n :: r => s.setEnv { s.env with counts := r, timer := n }
  | [] => s.setEnv { s.env with timer := Config.freeCount s.env.draws, draws := s.env.draws + 1 }

/-- `Arm(d)` (R275). -/
def arm (d : Half) (s : State) : State := (loadTimer s).emit (.arm d)

/-- `Expired()` (R276): true once the armed countdown has run out, and from then on (R277 (a)). Time passes between polls, which
is the count going down. -/
def pollExpired (s : State) : Bool × State :=
  let e := s.env.timer == 0
  (e, (s.setEnv { s.env with timer := s.env.timer - 1 }).emit (.expq e))

/-- These are the bytes the chip answers next. -/
def offerBytes (bytes : List Byte) (s : State) : State := s.setEnv { s.env with rx := bytes ++ s.env.rx }

/-- The chip drives the line active for the next poll (R262, R264). -/
def raiseLine (s : State) : State := s.setEnv { s.env with sig := true :: s.env.sig }

/-- The chip makes a frame or a packet pending: its bytes come next and the line is active (R264; logs 19 and 20). -/
def offer (bytes : List Byte) (s : State) : State := raiseLine (offerBytes bytes s)

/-! ## Transport (40_transport) -/

/-- `Select()` (R130). -/
def select (s : State) : State := (s.setCs true).emit .sel

/-- `Unselect()` (R131). -/
def unselect (s : State) : State := (s.setCs false).emit .unsel

/-- `Delay(d)` (R10): an event, no state change. -/
def delay (d : Delay) (s : State) : State := s.emit (.dly d)

/-- `Xchg(out)` (R132). -/
def xchg (phase : Phase) (out : Byte) (s : State) : Byte × State :=
  let p := chipByte phase s
  (p.1, p.2.emit (.xchg out p.1))

/-- `XchgD(out)` (R134): every exchange of every operation. -/
def xchgD (phase : Phase) (out : Byte) (s : State) : Byte × State :=
  let p := xchg phase out s
  (p.1, delay .interByte p.2)

/-- `XchgD(DUMMY)`: receive one byte (R144, R232). -/
def recvByte (s : State) : Byte × State := xchgD .receiving s.cfg.dummy s

/-- `XchgD(out)` with the byte it returns discarded: send one byte (R142, D5). -/
def sendByte (s : State) (out : Byte) : State := (xchgD .sending out s).2

/-! ## Framing engine (41_framing) -/

/-- The operands of a framing operation are latched when it is accepted (R81, R33). -/
def latch (req : List Byte) (expected cap : Byte) (hold : Bool) (tmo : Half) (s : State) : State :=
  s.setT { s.t with req := req, expOp := expected, cap := cap, hold := hold, tmo := tmo, k := 0 }

/-- The operands of a CMD, latched. -/
def latchCmd (opcode : Byte) (payload : List Byte) (cap : Byte) (hold : Bool) (s : State) : State :=
  latch (requestFrame opcode payload) opcode cap hold s.cfg.tCmd s

/-- The operands of a WAITRESP, latched: the fixed expected opcode and capacity 0 (R150, R151). -/
def latchWait (tmo : Half) (hold : Bool) (s : State) : State :=
  latch [] s.cfg.opCalibrateMode 0 hold tmo s

/-- `SendRequest` (R142), over the bytes of the frame. -/
def sendBytes (s : State) (bytes : List Byte) : State := bytes.foldl sendByte s

/-- The polling loop of `WaitReady` (R143), `n` the false answers the timer has left: true when the line was seen active. The
line is polled first, the timer only when the line was inactive. -/
def waitLoop : Nat → State → Bool × State
  | 0, s =>
    let b := pollSig s
    if b.1 then b else (false, (pollExpired b.2).2)
  | n + 1, s =>
    let b := pollSig s
    if b.1 then b else waitLoop n (pollExpired b.2).2

/-- `WaitReady(timeout)` (R143). -/
def waitReady (tmo : Half) (s : State) : Bool × State :=
  let a := arm tmo s
  waitLoop a.env.timer a

/-- The payload loop of `Receive` (R144). -/
def recvPayload : Nat → State → List Byte × State
  | 0, s => ([], s)
  | n + 1, s =>
    let b := recvByte s
    let r := recvPayload n b.2
    (b.1 :: r.1, r.2)

/-- The parse of `Receive` once the line is active (R144): each check as its byte arrives, the first failure ends it (R145), the
capacity check after the echoed opcode (R146). -/
def recvFrame (expected cap : Byte) (s : State) : Reply × State :=
  let h := recvByte s
  if h.1 ≠ Config.hdr then (.err .noHeader, h.2) else
  let l := recvByte h.2
  let s2 := l.2.setT { l.2.t with len := l.1 }
  if l.1.toNat < Config.minRespLen then (.err .invalidLength, s2) else
  let st := recvByte s2
  if st.1 ≠ Config.statusOk then (.err (.chipStatus st.1), st.2) else
  let o := recvByte st.2
  if o.1 ≠ expected then (.err .invalidResponseOpcode, o.2) else
  if cap.toNat < l.1.toNat - 2 then (.err .responseTooLarge, o.2) else
  let p := recvPayload (l.1.toNat - 2) o.2
  (.ok p.1, p.2.setT { p.2.t with resp := p.1 })

/-- `Receive(expected, capacity, timeout)` (R144). -/
def receive (expected cap : Byte) (tmo : Half) (s : State) : Reply × State :=
  let w := waitReady tmo s
  if w.1 then recvFrame expected cap w.2 else (.err .timeout, w.2)

/-- After an error the contents of `S.resp` are unspecified (R252, U5): a free value (log 34). -/
def dropResp (s : State) : State :=
  (s.setT { s.t with resp := (Config.freeResp s.env.draws).take Config.maxRespPayload }).setEnv
    { s.env with draws := s.env.draws + 1 }

/-- `Finish(r, hold)` (R147), which is also error entry (R256): on any error chip-select is released, whatever the caller
asked; on success unless it asked to hold. So a host's own CMD or WAITRESP with `hold` and `Ok` leaves it asserted in IDLE (R131,
R147, R150's example, vector VF15), which R13's list of exceptions, derived from R147, leaves out: R147 is followed (DEDUCED, log
38). -/
def finish (hold : Bool) (r : Reply × State) : Reply × State :=
  let s := if r.1.isErr then unselect (dropResp r.2) else if hold then r.2 else unselect r.2
  (r.1, s.setRes (Result.ofReply r.1))

/-- `CMD(opcode, payload, capacity, hold)` (R141), as an operation of the engine: the host's CMD and the composite operations
both run it. -/
def cmd (opcode : Byte) (payload : List Byte) (cap : Byte) (hold : Bool) (s : State) : Reply × State :=
  let a := sendBytes (select (latchCmd opcode payload cap hold s)) (requestFrame opcode payload)
  finish hold (receive opcode cap s.cfg.tCmd a)

/-- `WAITRESP(timeout, hold)` (R150), as an operation of the engine. -/
def waitResp (tmo : Half) (hold : Bool) (s : State) : Reply × State :=
  finish hold (receive s.cfg.opCalibrateMode 0 tmo (select (latchWait tmo hold s)))

/-! ## The sequencer's moves -/

/-- The index of the byte that is sent or received in a state of the sequencer, or is the next to be (R33 `S.k`, R26): of the
request's in `TX`, of the packet's in `PKT`, of the response payload's in `RX_PAYLOAD`, and of the response frame's before that. The
numbers of `WAIT` and of the four header bytes are the model's (DESIGN CHOICE, log 26). -/
def Seq.index : Seq → Option Nat
  | .tx k | .rxPayload k | .pkt k => some k
  | .wait | .rxHdr => some 0
  | .rxLen => some 1
  | .rxStatus => some 2
  | .rxOpcode => some 3
  | .idle | .done | .fail _ => none

/-- `pc <- target` (R10): the sequencer moves, and `S.k`, 8 bits wide, with it (R26, R33); in a state without a byte it stays. -/
def State.goTo (s : State) (q : Seq) : State :=
  (s.setT { s.t with k := (q.index.map (BitVec.ofNat 8)).getD s.t.k }).setSeq q

/-! ## Return to the host (R257) -/

/-- The engine is idle again. -/
def toIdle (s : State) : State := (s.setSeq .idle).setOp .none

/-- Return with a result: `S.res` is written, `S.seq <- IDLE`, event RET (R257). -/
def ret (op : OpName) (r : Result) (s : State) : State := (toIdle (s.setRes r)).emit (.ret op (some r))

/-- REGDUMP's return: no result to the host (R111, R197). -/
def retNone (op : OpName) (s : State) : State := (toIdle s).emit (.ret op none)

/-- An attempt begins: "every transient register is rewritten at the start of each attempt" (R33), `S.attempt` to its number, the
others to the model's reset values, which no rule reads (log 5). -/
def startAttempt (a : BitVec 2) (s : State) : State := s.setT { Transient.reset with attempt := a }

/-- A retry policy's loop (R191, R212): at most `n` attempts, the first numbered `a`; true on the first that succeeds. -/
def attempts (body : State → Bool × State) : Nat → Nat → State → Bool × State
  | 0, _, s => (false, s)
  | n + 1, a, s =>
    let r := body (startAttempt (BitVec.ofNat 2 a) s)
    if r.1 then (true, r.2) else attempts body n (a + 1) r.2

/-- The caller of REG_START stores the offset (R174): the first payload byte, or any value when the response carried none
(R178). -/
def storeOffset (p : List Byte) (s : State) : State :=
  match p with
  | b :: _ => s.setOffset b
  | [] => let f := freeByte s; f.2.setOffset f.1

end Sys2Proof.Machine
end

