-- ==== Sys2Proof/Machine/Framing.lean ====
section
/-! DEFINITION. Which operations the engine accepts when (10_state R24, 60_exceptions R271, 70_reset R300, R301), and the
framing operations as the host issues them: CMD and WAITRESP (41_framing). -/

namespace Sys2Proof.Machine

/-- An operation presented while `busy = 1` "is not accepted, changes no state and produces no event" (R300); otherwise it
runs. -/
def whenIdle (s : State) (run : Host.Outcome State Fault Refusal) : Host.Outcome State Fault Refusal :=
  if s.busy then .next s else run

/-- An operation that uses the bus, other than the calibration's own: not accepted while busy (R300), refused while a
calibration is active: "No other bus operation during a calibration" (R301, R271; log 15). -/
def hostBus (s : State) (run : Host.Outcome State Fault Refusal) : Host.Outcome State Fault Refusal :=
  whenIdle s (if s.mode = .calibrating then .refused .calibrationHeld else run)

/-- CMD as the host's operation: the engine's CMD and the return to the host (R141, R257). -/
def hostCmd (opcode : Byte) (payload : List Byte) (cap : Byte) (hold : Bool) (s : State) : State :=
  let r := cmd opcode payload cap hold s
  ret .cmd (Result.ofReply r.1) r.2

/-- CMD (R140, R141); a payload over 254 bytes is refused "without any bus activity" (R93). -/
def execCmd (opcode : Byte) (payload : List Byte) (cap : Byte) (hold : Bool) (s : State) : Host.Outcome State Fault Refusal :=
  hostBus s <|
    if Config.maxReqPayload < payload.length then .refused .payloadTooLong else .next (hostCmd opcode payload cap hold s)

/-- WAITRESP (R150). -/
def execWaitresp (tmo : Half) (hold : Bool) (s : State) : Host.Outcome State Fault Refusal :=
  hostBus s (let r := waitResp tmo hold s; .next (ret .waitresp (Result.ofReply r.1) r.2))

end Sys2Proof.Machine
end

