-- ==== Sys2Proof/Machine/Wire.lean ====
section
/-! DEFINITION. The eight wire commands (42_wire_commands): the CMD each one is, and its meaning as an instruction. -/

namespace Sys2Proof.Machine

/-- The four operands of a CMD (R140). -/
structure Command where
  opcode : Byte
  payload : List Byte
  cap : Byte
  hold : Bool
  deriving DecidableEq, Repr

/-- GET_VERSION is `CMD(OP_GET_VERSION, [], VERSION_LEN, 0)` (R170). -/
def cGetVersion (p : Params) : Command := ⟨p.opGetVersion, [], p.versionLen, false⟩
/-- ENABLE_TOUCH is `CMD(OP_ENABLE_TOUCH, [], 0, 0)` (R171). -/
def cEnableTouch (p : Params) : Command := ⟨p.opEnableTouch, [], 0, false⟩
/-- DISABLE_TOUCH is `CMD(OP_DISABLE_TOUCH, [], 0, 0)` (R172). -/
def cDisableTouch (p : Params) : Command := ⟨p.opDisableTouch, [], 0, false⟩
/-- CALIBRATE_MODE is `CMD(OP_CALIBRATE_MODE, [CAL_TYPE], 0, 1)` (R173); the type byte is an argument (log 35). -/
def cCalibrateMode (p : Params) (calType : Byte) : Command := ⟨p.opCalibrateMode, [calType], 0, true⟩
/-- REG_START is `CMD(OP_REG_START, [], 1, 0)` (R174). -/
def cRegStart (p : Params) : Command := ⟨p.opRegStart, [], 1, false⟩
/-- REG_READ is `CMD(OP_REG_READ, [0x00, addr, n], n, 0)` (R175). -/
def cRegRead (p : Params) (addr count : Byte) : Command := ⟨p.opRegRead, regReadPayload addr count, count, false⟩
/-- REG_WRITE is `CMD(OP_REG_WRITE, [0x00, addr, n] ++ data, 0, 0)` (R176). -/
def cRegWrite (p : Params) (addr : Byte) (data : List Byte) : Command := ⟨p.opRegWrite, regWritePayload addr data, 0, false⟩
/-- EEPROM_WRITE is `CMD(OP_EEPROM_WRITE, [], 0, 0)` (R177). -/
def cEepromWrite (p : Params) : Command := ⟨p.opEepromWrite, [], 0, false⟩

/-- Runs a command. -/
def runCmd (c : Command) (s : State) : Reply × State := cmd c.opcode c.payload c.cap c.hold s

/-- The write of one byte to a logical register (R73, R74, R176). -/
def cSetRegister (s : State) (reg value : Byte) : Command := cRegWrite s.cfg (phys s.offset reg) [value]

/-- The read of one logical register (R175, R197). -/
def cReadRegister (s : State) (reg : Byte) : Command := cRegRead s.cfg (phys s.offset reg) 1

/-- A wire command handed to the framing engine: it starts only from IDLE (R66, R140), it is a bus operation (R301), and it
returns to its caller above the framing engine, so there is no RET event (log 17). -/
def engineCmd (c : Command) (s : State) : Host.Outcome State Fault Refusal := hostBus s (.next (runCmd c s).2)

/-- GET_VERSION (R170). -/
def execGetVersion (s : State) : Host.Outcome State Fault Refusal := engineCmd (cGetVersion s.cfg) s

/-- ENABLE_TOUCH (R171). -/
def execEnableTouch (s : State) : Host.Outcome State Fault Refusal := engineCmd (cEnableTouch s.cfg) s

/-- DISABLE_TOUCH (R172). -/
def execDisableTouch (s : State) : Host.Outcome State Fault Refusal := engineCmd (cDisableTouch s.cfg) s

/-- CALIBRATE_MODE (R173), which holds chip-select whatever its type byte (DESIGN CHOICE for a byte other than `CAL_TYPE`, log
35). -/
def execCalibrateMode (calType : Byte) (s : State) : Host.Outcome State Fault Refusal :=
  engineCmd (cCalibrateMode s.cfg calType) s

/-- REG_START with its caller's store of the offset (R174). -/
def regStart (s : State) : Reply × State :=
  let r := runCmd (cRegStart s.cfg) s
  match r.1 with
  | .ok p => (r.1, storeOffset p r.2)
  | .err _ => r

/-- REG_START (R174). -/
def execRegStart (s : State) : Host.Outcome State Fault Refusal := hostBus s (.next (regStart s).2)

/-- REG_READ (R175). -/
def execRegRead (addr count : Byte) (s : State) : Host.Outcome State Fault Refusal := engineCmd (cRegRead s.cfg addr count) s

/-- REG_WRITE (R176), "`1 <= n <= 251`". -/
def execRegWrite (addr : Byte) (data : List Byte) (s : State) : Host.Outcome State Fault Refusal :=
  if data.length < 1 ∨ Config.maxRegWriteData < data.length then hostBus s (.refused .regWriteCount)
  else engineCmd (cRegWrite s.cfg addr data) s

/-- EEPROM_WRITE (R177): "no operation issues it except a raw CMD from the host" (R76), so it is the host's CMD. -/
def execEepromWrite (s : State) : Host.Outcome State Fault Refusal :=
  hostBus s (.next (let c := cEepromWrite s.cfg; hostCmd c.opcode c.payload c.cap c.hold s))

end Sys2Proof.Machine
end

