-- ==== Sys2Proof/Machine/Calibration.lean ====
section
/-! DEFINITION. The calibration sequencer CALSTART, CALPOINT, CALWAIT (44_calibration). -/

namespace Sys2Proof.Machine

/-- `S.pointIndex` of Idle and Failed (R22, R210). -/
def idleIndex : BitVec 3 := 5

/-- The command that writes `INSET` to the calibration-insets register (R212, R214). -/
def cWriteInset (s : State) : Command := cSetRegister s s.cfg.regCalInset s.cfg.inset

/-- CalStartAttempt (R212). -/
def calStartAttempt (s : State) : Bool × State :=
  let d := runCmd (cDisableTouch s.cfg) s
  if d.1.isErr then (false, d.2) else
  let o := regStart d.2
  if o.1.isErr then (false, o.2) else
  let w := runCmd (cWriteInset o.2) o.2
  if w.1.isErr then (false, w.2) else
  let m := runCmd (cCalibrateMode s.cfg s.cfg.calType) w.2
  (!m.1.isErr, m.2)

/-- CALSTART's result and state (R212). Without a session it leaves `S.cs` as it was, "no state change", although it reports a
failure, after which R303 and R224 have `S.cs = 0` (DEDUCED, log 40). -/
def calStart (s : State) : Bool × State :=
  if s.initialized then
    let r := attempts (fun a => calStartAttempt (a.setPointIndex idleIndex)) Config.maxAttempts 1 s
    (r.1, r.2.setPointIndex (if r.1 then 0 else idleIndex))
  else (false, s)

/-- CALSTART (R212); it may be issued during a calibration (R213 (b), R271). -/
def execCalstart (s : State) : Host.Outcome State Fault Refusal :=
  whenIdle s (let r := calStart s; .next (ret .calstart (.bool r.1) r.2))

/-- CALPOINT's result (R216). -/
def calPoint (s : State) : Result :=
  match corner s.pointIndex s.width s.height s.cfg.inset with
  | some p => .point p.1 p.2
  | none => .none

/-- CALPOINT (R216). It writes only `S.res`, so `None` leaves `S.cs` as it was, where R303 speaks of any operation that reports
failure (DEDUCED, log 40). -/
def execCalpoint (s : State) : Host.Outcome State Fault Refusal := whenIdle s (.next (ret .calpoint (calPoint s) s))

/-- CalFail (R220). -/
def calFail (s : State) : State := unselect (s.setPointIndex idleIndex)

/-- CalFinish (R221): the commit acknowledgement, then enable-touch. -/
def calFinish (tmo : Half) (s : State) : Option Bool × State :=
  let r := waitResp tmo true s
  if r.1.isErr then (none, calFail r.2) else
  let e := runCmd (cEnableTouch s.cfg) r.2
  if e.1.isErr then (none, calFail e.2) else (some false, e.2)

/-- CALWAIT's result and state (R220, R223). -/
def calWait (tmo : Half) (s : State) : Option Bool × State :=
  if s.active then
    let r := waitResp tmo true s
    if r.1.isErr then (none, calFail r.2) else
    let s1 := r.2.setPointIndex (r.2.pointIndex + 1)
    if s1.active then (some true, s1) else calFinish tmo s1
  else (none, calFail s)

/-- CALWAIT's result on the port (R111). -/
def Result.ofCalwait : Option Bool → Result
  | .some b => .more b
  | .none => .none

/-- CALWAIT (R220). -/
def execCalwait (tmo : Half) (s : State) : Host.Outcome State Fault Refusal :=
  whenIdle s (let r := calWait tmo s; .next (ret .calwait (Result.ofCalwait r.1) r.2))

end Sys2Proof.Machine
end

