-- ==== Sys2Proof/Machine/Session.lean ====
section
/-! DEFINITION. The session operations INIT, SETREG, REGDUMP (43_session). -/

namespace Sys2Proof.Machine

/-- INIT's entry actions (R190). -/
def initEntry (width height : Half) (rotated : Bool) (s : State) : State :=
  (s.setDisplay width height rotated).setInitialized false

/-- A status "calibration was cancelled by the chip" (R94, R192). -/
def isCancel (p : Params) (r : Reply) : Bool := decide (r = .err (.chipStatus p.statusCancel))

/-- DisableTouchWithCancelRetry (R192). -/
def disableTouchWithCancelRetry (s : State) : Reply × State :=
  let r := runCmd (cDisableTouch s.cfg) s
  if isCancel s.cfg r.1 then runCmd (cDisableTouch s.cfg) (delay .retry r.2) else r

/-- InitAttempt (R191). -/
def initAttempt (s : State) : Bool × State :=
  let d := disableTouchWithCancelRetry s
  if d.1.isErr then (false, d.2) else
  let o := regStart d.2
  if o.1.isErr then (false, o.2) else
  let e := runCmd (cEnableTouch s.cfg) o.2
  (!e.1.isErr, e.2)

/-- INIT's body (R190, R191): true sets `S.initialized`. -/
def init (width height : Half) (rotated : Bool) (s : State) : Bool × State :=
  let r := attempts initAttempt Config.maxAttempts 1 (initEntry width height rotated s)
  (r.1, if r.1 then r.2.setInitialized true else r.2)

/-- INIT (R190, R191). -/
def execInit (width height : Half) (rotated : Bool) (s : State) : Host.Outcome State Fault Refusal :=
  hostBus s (let r := init width height rotated s; .next (ret .init (.bool r.1) r.2))

/-- SETREG's result and state (R195). `NotReady` leaves `S.cs` as it was (log 40). -/
def setReg (reg value : Byte) (s : State) : Result × State :=
  if s.initialized then
    let r := runCmd (cSetRegister s reg value) s
    (Result.ofSetreg r.1, r.2)
  else (.notReady, s)

/-- SETREG (R195). -/
def execSetreg (reg value : Byte) (s : State) : Host.Outcome State Fault Refusal :=
  hostBus s (let r := setReg reg value s; .next (ret .setreg r.1 r.2))

/-- REGDUMP's loop over the registers (R197). -/
def dumpRegisters : List Byte → State → State
  | [], s => s
  | reg :: rest, s =>
    let r := runCmd (cReadRegister s reg) s
    dumpRegisters rest (r.2.sinkPut (.reply r.1))

/-- REGDUMP's body (R197); "a failed step does not stop the dump". Without a session it leaves `S.cs` as it was, as the pseudocode's
"no bus activity" and D22 have it; R197's prose says it returns with `S.cs = 0` (DEDUCED, log 40). -/
def regDump (s : State) : State :=
  if s.initialized then
    let s1 := s.sinkPut (.offset s.offset)
    let v := runCmd (cGetVersion s1.cfg) s1
    dumpRegisters s.cfg.dumpRegs (v.2.sinkPut (.reply v.1))
  else s

/-- REGDUMP (R197). -/
def execRegdump (s : State) : Host.Outcome State Fault Refusal := hostBus s (.next (retNone .regdump (regDump s)))

end Sys2Proof.Machine
end

