-- ==== Sys2Proof/Machine/Touch.lean ====
section
/-! DEFINITION. The touch decoder: DECODE, the three packet classes, READ (45_touch). -/

namespace Sys2Proof.Machine

/-- DecodePacket (R233, R234); a list that is not five bytes is no packet. -/
def decodePacket (pkt : List Byte) (s : State) : State :=
  match pkt with
  | [pen, xlo, xhi, ylo, yhi] =>
    match penState pen with
    | some t => s.setCurrent (packetCoord s.width s.height s.rotated t xlo xhi ylo yhi)
    | none => s
  | _ => s

/-- The five exchanges of one packet (R232). -/
def recvPacket (s : State) : List Byte × State :=
  let p := recvPayload Config.pktLen s
  (p.1, p.2.setT { p.2.t with pkt := p.1 })

/-- One round of DECODE's loop: select, five exchanges, unselect, decode (R232). -/
def packetRound (s : State) : State :=
  let p := recvPacket (select s)
  decodePacket p.1 (unselect p.2)

/-- DECODE's loop (R232), `n` the false answers the timer has left: the line inactive ends it, then the timer, polled only while
the line is active. With no packet read it touches no chip-select, as the pseudocode and R239 (h) have it: a line that a host's CMD
left held stays so, against R232's "`0` on return" (DEDUCED, log 39). -/
def decodeLoop : Nat → State → State
  | 0, s =>
    let b := pollSig s
    if b.1 then (pollExpired b.2).2 else b.2
  | n + 1, s =>
    let b := pollSig s
    if b.1 then decodeLoop n (packetRound (pollExpired b.2).2) else b.2

/-- DECODE's body (R232). -/
def decodeRun (s : State) : State :=
  let a := arm s.cfg.tDec s
  decodeLoop a.env.timer a

/-- DECODE (R230 to R232): it runs when it is enabled (R231); when it is masked the trigger leaves no trace in the engine
(R264). -/
def execDecode (s : State) : Host.Outcome State Fault Refusal :=
  if s.decodeEnabled then .next (decodeRun s) else .next s

/-- A touch packet the chip offers (log 20): where DECODE is enabled its five bytes are what the next round of DECODE's loop
exchanges; where it is masked they wait in the chip, with the line active (R193 (f), R264). -/
def execPacket (bytes : List Byte) (s : State) : Host.Outcome State Fault Refusal :=
  if s.decodeEnabled then .next (packetRound (offerBytes bytes s)) else .next (offer bytes s)

/-- PKT.PENDOWN (R233). -/
def execPktPenDown (ignored : BitVec 6) (xlo xhi ylo yhi : Byte) (s : State) : Host.Outcome State Fault Refusal :=
  execPacket [penDownByte ignored, xlo, xhi, ylo, yhi] s

/-- PKT.PENUP (R233, R236). -/
def execPktPenUp (ignored : BitVec 6) (xlo xhi ylo yhi : Byte) (s : State) : Host.Outcome State Fault Refusal :=
  execPacket [penUpByte ignored, xlo, xhi, ylo, yhi] s

/-- PKT.INVALID (R234). -/
def execPktInvalid (low : BitVec 7) (b1 b2 b3 b4 : Byte) (s : State) : Host.Outcome State Fault Refusal :=
  execPacket [penInvalidByte low, b1, b2, b3, b4] s

/-- READ's result and state (R240). `NotReady` leaves `S.cs` as it was (log 40). -/
def readTouch (s : State) : Result × State :=
  if s.initialized then
    if s.current.same s.lastReported then (.noNew, s) else (.coord s.current, s.setLastReported s.current)
  else (.notReady, s)

/-- READ (R240). -/
def execRead (s : State) : Host.Outcome State Fault Refusal :=
  whenIdle s (let r := readTouch s; .next (ret .read r.1 r.2))

end Sys2Proof.Machine
end

