-- ==== Sys2Proof/Machine/Sequencer.lean ====
section
/-! DEFINITION. The sequencer, one event at a time: `S.seq`'s transitions (10_state R26), the progress of the composite
operations in `S.op`, `S.step`, `S.attempt`, `S.retried` (R25, R33), and the two wire rows that stand for half of a CMD: the
request frame and the response frame. The whole-operation meanings (the pseudocode of 41 to 45) govern (R26); this file is the
same behaviour event by event, and an obligation states that the two agree. -/

namespace Sys2Proof.Machine

/-! ## Starting a framing operation -/

/-- CMD is accepted: operands latched, `SEL`, then `TX(0)` (R26). -/
def startCmd (c : Command) (s : State) : State :=
  (select (latchCmd c.opcode c.payload c.cap c.hold s)).goTo (.tx 0)

/-- WAITRESP is accepted: `SEL`, `ARM`, then `WAIT` (R26). -/
def startWait (tmo : Half) (hold : Bool) (s : State) : State :=
  (arm tmo (select (latchWait tmo hold s))).goTo .wait

/-- Which sub-operation of a composite operation is running (R25, R33 `S.step`). R33 gives the values no numbering; the model's,
from 0 in the order of the pseudocode, is a DESIGN CHOICE (log 36): INIT 0 disable-touch and its resend, 1 the offset query, 2
enable-touch; CALSTART 0 disable-touch, 1 the offset query, 2 the inset write, 3 calibrate-mode; CALWAIT 0 the wait, 1 the commit
wait, 2 enable-touch; SETREG 0; REGDUMP 0 the version, 1 every register read. -/
def setStep (n : BitVec 3) (s : State) : State := s.setT { s.t with step := n }

/-! ## The composite operations, sub-operation by sub-operation -/

/-- INIT's attempt `a` begins with disable-touch (R191). -/
def startInitAttempt (a : BitVec 2) (s : State) : State :=
  startCmd (cDisableTouch s.cfg) (startAttempt a s)

/-- A step of INIT failed: the attempt ends, and another begins if one is left (R191, R258). -/
def initStepFailed (s : State) : State :=
  if s.t.attempt.toNat < Config.maxAttempts then startInitAttempt (s.t.attempt + 1) s else ret .init (.bool false) s

/-- INIT goes on after a sub-operation (R191, R192). -/
def initNext (r : Reply) (s : State) : State :=
  match s.t.step.toNat, r with
  | 0, .ok _ => startCmd (cRegStart s.cfg) (setStep 1 s)
  | 0, .err _ =>
    if isCancel s.cfg r && !s.t.retried then
      startCmd (cDisableTouch s.cfg) ((delay .retry s).setT { s.t with retried := true })
    else initStepFailed s
  | 1, .ok p => startCmd (cEnableTouch s.cfg) (setStep 2 (storeOffset p s))
  | _, .ok _ => ret .init (.bool true) (s.setInitialized true)
  | _, .err _ => initStepFailed s

/-- CALSTART's attempt `a` (R212). -/
def startCalAttempt (a : BitVec 2) (s : State) : State :=
  startCmd (cDisableTouch s.cfg) ((startAttempt a s).setPointIndex idleIndex)

/-- CALSTART goes on after a sub-operation (R212). -/
def calstartNext (r : Reply) (s : State) : State :=
  match s.t.step.toNat, r with
  | 0, .ok _ => startCmd (cRegStart s.cfg) (setStep 1 s)
  | 1, .ok p => let s1 := storeOffset p s; startCmd (cWriteInset s1) (setStep 2 s1)
  | 2, .ok _ => startCmd (cCalibrateMode s.cfg s.cfg.calType) (setStep 3 s)
  | _, .ok _ => ret .calstart (.bool true) (s.setPointIndex 0)
  | _, .err _ =>
    if s.t.attempt.toNat < Config.maxAttempts then startCalAttempt (s.t.attempt + 1) s
    else ret .calstart (.bool false) (s.setPointIndex idleIndex)

/-- CALWAIT goes on after a sub-operation (R220, R221). -/
def calwaitNext (r : Reply) (s : State) : State :=
  match s.t.step.toNat, r with
  | _, .err _ => ret .calwait .none (calFail s)
  | 0, .ok _ =>
    let s1 := s.setPointIndex (s.pointIndex + 1)
    if s1.active then ret .calwait (.more true) s1 else startWait s1.t.tmo true (setStep 1 s1)
  | 1, .ok _ => startCmd (cEnableTouch s.cfg) (setStep 2 s)
  | _, .ok _ => ret .calwait (.more false) s

/-- REGDUMP goes on after a sub-operation: the reply goes to the sink, then the next register (R197). `S.step` is 1 for every
register, however many `DUMP_REGS` names; `todo` tells them apart (DESIGN CHOICE, logs 26 and 36). -/
def regdumpNext (r : Reply) (s : State) : State :=
  let s1 := s.sinkPut (.reply r)
  match s1.t.todo with
  | reg :: rest => startCmd (cReadRegister s1 reg) (setStep 1 (s1.setT { s1.t with todo := rest }))
  | [] => retNone .regdump s1

/-- "back to the caller": a framing operation has ended with a reply (R26, R257, R258). -/
def backToCaller (r : Reply) (s : State) : State :=
  match s.op with
  | .cmd => ret .cmd (Result.ofReply r) s
  | .waitresp => ret .waitresp (Result.ofReply r) s
  | .init => initNext r s
  | .calstart => calstartNext r s
  | .calwait => calwaitNext r s
  | .setreg => ret .setreg (Result.ofSetreg r) s
  | .regdump => regdumpNext r s
  | .none | .select | .unselect | .xchg | .read | .calpoint | .decode => toIdle s

/-! ## One event of the sequencer (R26) -/

/-- `TX(k)`: one request byte; after the last one `ARM(timeout)` and `WAIT`. -/
def stepTx (k : Nat) (s : State) : State :=
  match s.t.req[k]? with
  | some b =>
    let s1 := sendByte s b
    if k + 1 < s.t.req.length then s1.goTo (.tx (k + 1)) else (arm s1.t.tmo s1).goTo .wait
  | none => (arm s.t.tmo s).goTo .wait

/-- `WAIT`: the signal line, then the timer if the line was inactive. -/
def stepWait (s : State) : State :=
  let b := pollSig s
  if b.1 then b.2.goTo .rxHdr
  else
    let e := pollExpired b.2
    e.2.goTo (if e.1 then .fail .timeout else .wait)

/-- DECODE between packets, which `S.seq = WAIT` with `S.op = DECODE` stands for (log 27): the line, then the timer if the line
was active (R232). -/
def stepPoll (s : State) : State :=
  let b := pollSig s
  if b.1 then
    let e := pollExpired b.2
    if e.1 then toIdle e.2 else (select e.2).goTo (.pkt 0)
  else toIdle b.2

/-- `RX_HDR`. -/
def stepHdr (s : State) : State :=
  let b := recvByte s
  b.2.goTo (if b.1 = Config.hdr then .rxLen else .fail .noHeader)

/-- `RX_LEN`. -/
def stepLen (s : State) : State :=
  let b := recvByte s
  (b.2.setT { b.2.t with len := b.1 }).goTo (if b.1.toNat < Config.minRespLen then .fail .invalidLength else .rxStatus)

/-- `RX_STATUS`. -/
def stepStatus (s : State) : State :=
  let b := recvByte s
  b.2.goTo (if b.1 = Config.statusOk then .rxOpcode else .fail (.chipStatus b.1))

/-- `RX_OPCODE`: the echoed opcode, the capacity, then the payload or `DONE`. `S.resp` is "the response payload received so far"
(R33): none yet; what it holds before this is stale, and after an error free (log 34). -/
def stepOpcode (s : State) : State :=
  let b := recvByte s
  let s1 := b.2.setT { b.2.t with resp := [] }
  s1.goTo (
    if b.1 ≠ s1.t.expOp then .fail .invalidResponseOpcode
    else if s1.t.cap.toNat < s1.t.len.toNat - 2 then .fail .responseTooLarge
    else if 0 < s1.t.len.toNat - 2 then .rxPayload 0
    else .done)

/-- `RX_PAYLOAD(k)`. -/
def stepPayload (k : Nat) (s : State) : State :=
  let b := recvByte s
  (b.2.setT { b.2.t with resp := b.2.t.resp ++ [b.1] }).goTo (if k + 1 < b.2.t.len.toNat - 2 then .rxPayload (k + 1) else .done)

/-- `PKT(k)`; after the fifth byte the packet is decoded and DECODE goes on (R232). -/
def stepPkt (k : Nat) (s : State) : State :=
  let b := recvByte s
  let s1 := b.2.setT { b.2.t with pkt := (if k = 0 then [] else b.2.t.pkt) ++ [b.1] }
  if k + 1 < Config.pktLen then s1.goTo (.pkt (k + 1)) else (decodePacket s1.t.pkt (unselect s1)).goTo .wait

/-- A framing operation has its reply: `Finish`, and back to the caller. -/
def stepReply (r : Reply) (s : State) : State :=
  let f := finish s.t.hold (r, s)
  backToCaller f.1 f.2

/-- The sequencer's next event (R26). In `IDLE` there is none. -/
def seqStep (s : State) : State :=
  match s.seq with
  | .idle => s
  | .tx k => stepTx k s
  | .wait => if s.op = .decode then stepPoll s else stepWait s
  | .rxHdr => stepHdr s
  | .rxLen => stepLen s
  | .rxStatus => stepStatus s
  | .rxOpcode => stepOpcode s
  | .rxPayload k => stepPayload k s
  | .done => stepReply (.ok s.t.resp) s
  | .fail e => stepReply (.err e) s
  | .pkt k => stepPkt k s

/-- `n` events of the sequencer. -/
def seqRun : Nat → State → State
  | 0, s => s
  | n + 1, s => seqRun n (seqStep s)

/-! ## A host operation event by event -/

/-- CALSTART begins (R212). -/
def beginCalstart (s : State) : State :=
  if s.initialized then startCalAttempt 1 (s.setOp .calstart) else ret .calstart (.bool false) s

/-- CALWAIT begins (R220, R223). -/
def beginCalwait (tmo : Half) (s : State) : State :=
  if s.active then startWait tmo true (setStep 0 (s.setOp .calwait)) else ret .calwait .none (calFail s)

/-- SETREG begins (R195); its one sub-operation has `S.step` 0 (log 36). -/
def beginSetreg (reg value : Byte) (s : State) : State :=
  if s.initialized then startCmd (cSetRegister s reg value) (setStep 0 (s.setOp .setreg)) else ret .setreg .notReady s

/-- REGDUMP begins (R197). -/
def beginRegdump (s : State) : State :=
  if s.initialized then
    let s1 := (s.sinkPut (.offset s.offset)).setOp .regdump
    startCmd (cGetVersion s1.cfg) (setStep 0 (s1.setT { s1.t with todo := s1.cfg.dumpRegs }))
  else retNone .regdump s

/-- DECODE begins: `ARM(T_DEC)`, then its loop (R232). -/
def beginDecode (s : State) : State := ((arm s.cfg.tDec s).setOp .decode).goTo .wait

/-- A host operation, or DECODE, is accepted and its first event happens; the operations without bus activity return at once.
What is not offered at the operation port is not accepted (R110). -/
def begin (i : Instr) (s : State) : Host.Outcome State Fault Refusal :=
  match i with
  | .cmd opcode payload cap hold =>
    hostBus s (if Config.maxReqPayload < payload.length then .refused .payloadTooLong
      else .next (startCmd ⟨opcode, payload, cap, hold⟩ (s.setOp .cmd)))
  | .waitresp tmo hold => hostBus s (.next (startWait tmo hold (s.setOp .waitresp)))
  | .init width height rotated =>
    hostBus s (.next (startInitAttempt 1 ((initEntry width height rotated s).setOp .init)))
  | .read => execRead s
  | .calstart => whenIdle s (.next (beginCalstart s))
  | .calpoint => execCalpoint s
  | .calwait tmo => whenIdle s (.next (beginCalwait tmo s))
  | .setreg reg value => hostBus s (.next (beginSetreg reg value s))
  | .regdump => hostBus s (.next (beginRegdump s))
  | .decode => if s.decodeEnabled then .next (beginDecode s) else .next s
  | .getVersion | .enableTouch | .disableTouch | .calibrateMode _ | .regStart | .regRead _ _ | .regWrite _ _ | .eepromWrite
  | .reqFrame _ _ | .rspFrame _ _ _ _ | .pktPenDown _ _ _ _ _ | .pktPenUp _ _ _ _ _ | .pktInvalid _ _ _ _ _
  | .reserved0 | .reservedA | .reservedB | .reservedC | .reservedD | .reservedE | .reservedF
  | .select | .unselect | .xchg _ => .next s

/-! ## The two halves of a CMD as frames on the wire -/

/-- REQ, any request frame (R91, R142): the transmit half of a host CMD that accepts every response and does not hold (log 18).
Chip-select is asserted, the bytes go out in order, the timer is armed and the engine waits for the response. -/
def execReqFrame (opcode : Byte) (payload : List Byte) (s : State) : Host.Outcome State Fault Refusal :=
  hostBus s <|
    if Config.maxReqPayload < payload.length then .refused .payloadTooLong
    else
      let a := (sendBytes (select (latchCmd opcode payload 0xFF false s)) (requestFrame opcode payload)).setOp .cmd
      .next ((arm s.cfg.tCmd a).goTo .wait)

/-- The chip offers bytes as a response, whatever they are: an engine in `WAIT` sees the line active, parses them under the latched
expected opcode and capacity (R144; illegal ones end the operation with an error, R101), finishes, and goes back to the caller. At
any other moment they stay pending in the chip (log 19). -/
def respond (bytes : List Byte) (s : State) : Host.Outcome State Fault Refusal :=
  let o := offer bytes s
  if s.seq = .wait ∧ s.op ≠ .decode then
    let f := finish s.t.hold (recvFrame s.t.expOp s.t.cap (pollSig o).2)
    .next (backToCaller f.1 f.2)
  else .next o

/-- RSP, a response frame (R92, R144). -/
def execRspFrame (len status opcode : Byte) (payload : List Byte) (s : State) : Host.Outcome State Fault Refusal :=
  respond (Config.hdr :: len :: status :: opcode :: payload) s

/-- An external reset (R290, R291): the table of R39 at once, "chip-select is released at once"; the chip, the timer and the
parameters are not the engine's to reset (R292; log 25). -/
def engineReset (s : State) : State :=
  { State.reset with cfg := s.cfg, env := s.env, inputs := s.inputs, trace := .unsel :: s.trace, sink := s.sink }

end Sys2Proof.Machine
end

