-- ==== Sys2Proof/Machine/Transport.lean ====
section
/-! DEFINITION. The meanings of the transport micro-operations (40_transport) and of the reserved select codes (30_encoding
R110). -/

namespace Sys2Proof.Machine

/-- SELECT (R130). -/
def execSelect (s : State) : Host.Outcome State Fault Refusal := .next (select s)

/-- UNSELECT (R131). -/
def execUnselect (s : State) : Host.Outcome State Fault Refusal := .next (unselect s)

/-- XCHG (R132): requires chip-select asserted; the byte received, the next of the chip's response or packet, is in the trace's
event (log 33). -/
def execXchg (out : Byte) (s : State) : Host.Outcome State Fault Refusal :=
  if s.cs then .next (xchg .receiving out s).2 else .fault .xchgUnselected

/-- A reserved select code: "the engine does not accept them, busy stays 0 and no state changes" (R110; log 13). -/
def notAccepted (s : State) : Host.Outcome State Fault Refusal := .next s

/-- Select code `0x0` (R110). -/
def execReserved0 (s : State) : Host.Outcome State Fault Refusal := notAccepted s
/-- Select code `0xA` (R110). -/
def execReservedA (s : State) : Host.Outcome State Fault Refusal := notAccepted s
/-- Select code `0xB` (R110). -/
def execReservedB (s : State) : Host.Outcome State Fault Refusal := notAccepted s
/-- Select code `0xC` (R110). -/
def execReservedC (s : State) : Host.Outcome State Fault Refusal := notAccepted s
/-- Select code `0xD` (R110). -/
def execReservedD (s : State) : Host.Outcome State Fault Refusal := notAccepted s
/-- Select code `0xE` (R110). -/
def execReservedE (s : State) : Host.Outcome State Fault Refusal := notAccepted s
/-- Select code `0xF` (R110). -/
def execReservedF (s : State) : Host.Outcome State Fault Refusal := notAccepted s

end Sys2Proof.Machine
end

