-- ==== Sys2Proof/Machine/Dispatch.lean ====
section
/-! DEFINITION. One arm per row of the opcode table. -/

namespace Sys2Proof.Machine

def exec (i : Instr) (s : State) : Host.Outcome State Fault Refusal :=
  match i with
  | .getVersion => Sys2Proof.Machine.execGetVersion s
  | .enableTouch => Sys2Proof.Machine.execEnableTouch s
  | .disableTouch => Sys2Proof.Machine.execDisableTouch s
  | .calibrateMode calType => Sys2Proof.Machine.execCalibrateMode calType s
  | .regStart => Sys2Proof.Machine.execRegStart s
  | .regRead addr count => Sys2Proof.Machine.execRegRead addr count s
  | .regWrite addr data => Sys2Proof.Machine.execRegWrite addr data s
  | .eepromWrite => Sys2Proof.Machine.execEepromWrite s
  | .reqFrame opcode payload => Sys2Proof.Machine.execReqFrame opcode payload s
  | .rspFrame len status opcode payload => Sys2Proof.Machine.execRspFrame len status opcode payload s
  | .pktPenDown ignored xlo xhi ylo yhi => Sys2Proof.Machine.execPktPenDown ignored xlo xhi ylo yhi s
  | .pktPenUp ignored xlo xhi ylo yhi => Sys2Proof.Machine.execPktPenUp ignored xlo xhi ylo yhi s
  | .pktInvalid low b1 b2 b3 b4 => Sys2Proof.Machine.execPktInvalid low b1 b2 b3 b4 s
  | .cmd opcode payload capacity hold => Sys2Proof.Machine.execCmd opcode payload capacity hold s
  | .waitresp timeout hold => Sys2Proof.Machine.execWaitresp timeout hold s
  | .init width height rotated => Sys2Proof.Machine.execInit width height rotated s
  | .read => Sys2Proof.Machine.execRead s
  | .calstart => Sys2Proof.Machine.execCalstart s
  | .calpoint => Sys2Proof.Machine.execCalpoint s
  | .calwait timeout => Sys2Proof.Machine.execCalwait timeout s
  | .setreg reg value => Sys2Proof.Machine.execSetreg reg value s
  | .regdump => Sys2Proof.Machine.execRegdump s
  | .reserved0 => Sys2Proof.Machine.execReserved0 s
  | .reservedA => Sys2Proof.Machine.execReservedA s
  | .reservedB => Sys2Proof.Machine.execReservedB s
  | .reservedC => Sys2Proof.Machine.execReservedC s
  | .reservedD => Sys2Proof.Machine.execReservedD s
  | .reservedE => Sys2Proof.Machine.execReservedE s
  | .reservedF => Sys2Proof.Machine.execReservedF s
  | .select => Sys2Proof.Machine.execSelect s
  | .unselect => Sys2Proof.Machine.execUnselect s
  | .xchg out => Sys2Proof.Machine.execXchg out s
  | .decode => Sys2Proof.Machine.execDecode s

end Sys2Proof.Machine
end

