-- ==== Sys2Proof/Machine/Fetch.lean ====
section
/-! DEFINITION. How the engine takes its next stimulus (10_state R24, 70_reset R300, 45_touch R231), and how a word is placed
where it will be taken. -/

namespace Sys2Proof.Machine

/-- The host and the callers of the framing engine wait for `busy = 0` (R300, R66); the chip does not. -/
def waitsForIdle : Channel → Bool
  | .host | .wire => true
  | .rsp | .pkt => false

/-- A decoded word at the host port or for the framing engine runs; bytes that are no encoding are refused by name. -/
def runDecoded (run : Instr → State → Host.Outcome State Fault Refusal) (d : Decoded) (s : State) :
    Host.Outcome State Fault Refusal :=
  match d with
  | .ok i _ => run i s
  | .error e => .refused (.noEncoding e)

/-- Bytes the chip offers, at the place they are offered as. A frame or packet runs, and the bytes after it are the next the chip
answers. Bytes that are neither are offered all the same: as a response the engine that waits for one parses them and reports the
error (R101, R144); as a packet too short they are pending, with the line active (R264). -/
def takeFromChip (ch : Channel) (bytes : List Byte) (s : State) : Host.Outcome State Fault Refusal :=
  match decode s.cfg ch bytes with
  | .ok i tail => exec i (offerBytes tail s)
  | .error _ => if ch = .rsp then respond bytes s else .next (offer bytes s)

/-- One stimulus. While an operation is in progress the host goes on presenting its operation (R300) and the sequencer has the
step; otherwise the stimulus is taken. -/
def takeStimulus (st : Stimulus) (rest : List Stimulus) (s : State) : Host.Outcome State Fault Refusal :=
  match st with
  | .word ch bytes =>
    if waitsForIdle ch then
      if s.busy then .next (seqStep s) else runDecoded exec (decode s.cfg ch bytes) (s.setInputs rest)
    else takeFromChip ch bytes (s.setInputs rest)
  | .start bytes =>
    if s.busy then .next (seqStep s) else runDecoded begin (decode s.cfg .host bytes) (s.setInputs rest)
  | .trigger => exec .decode (s.setInputs rest)
  | .startTrigger => begin .decode (s.setInputs rest)
  | .reset => .next (engineReset (s.setInputs rest))

/-- One step of the machine: the next stimulus, or, with none, the sequencer's next event (none in IDLE, R26). -/
def stepEngine (s : State) : Host.Outcome State Fault Refusal :=
  match s.inputs with
  | [] => .next (seqStep s)
  | st :: rest => takeStimulus st rest s

/-- Presents the bytes of a table row's number, at the place its format names, as the next stimulus (log 12). -/
def placeWord (s : State) (nbits w : Nat) : State :=
  s.setInputs (.word (tableChannel nbits w) (tableWord nbits w) :: s.inputs)

end Sys2Proof.Machine
end

