-- ==== Sys2Proof/Safety.lean ====
section
/-! DEFINITION. The terms claims are stated in: what a trace must look like (10_state R36, 70_reset R302), the invariant every
step keeps, what an operation leaves alone, the chip's scripted answers (95_test_vectors section 0), and runs (00_scope R13). -/

namespace Sys2Proof.Machine

/-! ## Traces (newest event first) -/

/-- The level of chip-select after a trace: the last SEL or UNSEL decides; deasserted before any (R39). -/
def traceLevel : List Event → Bool
  | [] => false
  | .sel :: _ => true
  | .unsel :: _ => false
  | .xchg _ _ :: r | .dly _ :: r | .arm _ :: r | .expq _ :: r | .sigq _ :: r | .ret _ _ :: r => traceLevel r

/-- "every X event happens with S.cs = 1" (invariant I-e, R36). -/
def traceSelected : List Event → Bool
  | [] => true
  | .xchg _ _ :: r => traceLevel r && traceSelected r
  | .sel :: r | .unsel :: r | .dly _ :: r | .arm _ :: r | .expq _ :: r | .sigq _ :: r | .ret _ _ :: r => traceSelected r

/-- "every X is followed by DLY(T_IB) before the next X" (R302); the flag says that an X is the next exchange to come and no
DLY(T_IB) has been met since. -/
def traceSpaced : Bool → List Event → Bool
  | _, [] => true
  | due, .xchg _ _ :: r => !due && traceSpaced true r
  | _, .dly .interByte :: r => traceSpaced false r
  | due, .dly .retry :: r => traceSpaced due r
  | due, .sel :: r | due, .unsel :: r | due, .arm _ :: r | due, .expq _ :: r | due, .sigq _ :: r | due, .ret _ _ :: r =>
    traceSpaced due r

/-- The events of exchanges, newest first: one `X(out, in) DLY(T_IB)` for each pair (R134). -/
def exchangeEvents : List (Byte × Byte) → List Event
  | [] => []
  | b :: r => exchangeEvents r ++ [.dly .interByte, .xchg b.1 b.2]

/-- The events of a sent frame, newest first, with the bytes the chip answers meanwhile, which are ignored (R142). -/
def sentEvents (bytes ignored : List Byte) : List Event := exchangeEvents (bytes.zip ignored)

/-- The events of received bytes, newest first: each exchanged for `DUMMY` (R144). -/
def recvEvents (dummy : Byte) (bytes : List Byte) : List Event := exchangeEvents (bytes.map fun b => (dummy, b))

/-! ## The invariant -/

/-- An exchange is due: the sequencer is inside a frame or waits for a response. -/
def Seq.exchanging (q : Seq) (o : OpName) : Bool :=
  match q with
  | .idle => false
  | .wait => decide (o ≠ .decode)
  | .tx _ | .rxHdr | .rxLen | .rxStatus | .rxOpcode | .rxPayload _ | .done | .fail _ | .pkt _ => true

/-- The link (R36 I-e, R302): the trace's level is `S.cs`, every exchange was selected and spaced, and an engine inside a frame
holds chip-select; packets are read by DECODE only. -/
structure LinkInv (s : State) : Prop where
  level : traceLevel s.trace = s.cs
  selected : traceSelected s.trace = true
  spaced : traceSpaced true s.trace = true
  held : s.seq.exchanging s.op = true → s.cs = true
  packet : ∀ k, s.seq = .pkt k → s.op = .decode

/-- `S.op = NONE` exactly when `S.seq = IDLE` (R25). -/
abbrev SeqInv (s : State) : Prop := s.seq = .idle ↔ s.op = .none

/-- In every state of the sequencer in which a byte is sent or received, `S.k` is the low 8 bits of its index (R33; in `WAIT` and the
four header bytes the model's number, log 26). -/
abbrev IndexInv (s : State) : Prop := ∀ k, s.seq.index = some k → s.t.k = BitVec.ofNat 8 k

/-- The calibration (R22, R210, R224): the index is 0..5; an active one means a session and, between operations, chip-select
held; and what each operation in progress says of it, its progress in the model's numbers (log 36). -/
structure CalInv (s : State) : Prop where
  range : s.pointIndex.toNat ≤ 5
  session : s.active = true → s.initialized = true
  held : s.seq = .idle → s.active = true → s.cs = true
  waiting : s.seq ≠ .idle → s.op = .calwait → s.t.step = 0 → s.active = true ∧ s.t.hold = true
  finishing : s.seq ≠ .idle → s.op = .calwait → s.t.step ≠ 0 → s.active = false
  starting : s.seq ≠ .idle → s.op = .calstart →
    s.initialized = true ∧ s.active = false ∧ (3 ≤ s.t.step.toNat → s.t.hold = true)
  other : s.seq ≠ .idle → s.op ≠ .calwait → s.op ≠ .calstart → s.active = false

/-- The invariant of the machine. -/
structure Inv (s : State) : Prop where
  link : LinkInv s
  seq : SeqInv s
  index : IndexInv s
  cal : CalInv s

/-! ## What an operation leaves alone -/

/-- The next state has the same registers as `s` but for `S.cs`, `S.res`, `S.seq`, `S.op` and the transient registers; the
parameters, the stimuli and the sink are as they were. A statement names a register an operation writes by giving `s` with that
register changed. -/
structure SameRegs (s t : State) : Prop where
  initialized : t.initialized = s.initialized
  current : t.current = s.current
  lastReported : t.lastReported = s.lastReported
  pointIndex : t.pointIndex = s.pointIndex
  offset : t.offset = s.offset
  width : t.width = s.width
  height : t.height = s.height
  rotated : t.rotated = s.rotated
  cfg : t.cfg = s.cfg
  inputs : t.inputs = s.inputs
  sink : t.sink = s.sink

/-- The engine is idle (R13, R24). -/
abbrev Idle (s : State) : Prop := s.seq = .idle ∧ s.op = .none

/-- The same state but for `S.k`, which the sequencer moves with every byte; a response that is parsed in one step shows no state
between two bytes and leaves it alone (R33, log 26). -/
def sameButK (s t : State) : Prop := s.setT { s.t with k := t.t.k } = t

/-- Two states that differ at most in the transient registers, none of which "has a meaning, or a value a rule may read, after
its operation returned" (R33). -/
def sameButTransient (s t : State) : Prop := s.setT Transient.reset = t.setT Transient.reset

/-! ## The chip's scripted answers -/

/-- The bytes of an accepted response frame (R92). -/
def responseFrame (opcode : Byte) (payload : List Byte) : List Byte :=
  Config.hdr :: BitVec.ofNat 8 (payload.length + 2) :: Config.statusOk :: opcode :: payload

/-- What a response phase makes of the bytes the chip has pending: the reply and the bytes left (the table of R250, the checks
in the order of R254, the counts of R145). -/
inductive Parses (expected cap : Byte) : List Byte → Reply → List Byte → Prop where
  | noHeader (h : Byte) (rest : List Byte) (bad : h ≠ 0x55) :
      Parses expected cap (h :: rest) (.err .noHeader) rest
  | invalidLength (l : Byte) (rest : List Byte) (bad : l.toNat < 2) :
      Parses expected cap (0x55 :: l :: rest) (.err .invalidLength) rest
  | chipStatus (l st : Byte) (rest : List Byte) (len : 2 ≤ l.toNat) (bad : st ≠ 0x00) :
      Parses expected cap (0x55 :: l :: st :: rest) (.err (.chipStatus st)) rest
  | invalidResponseOpcode (l o : Byte) (rest : List Byte) (len : 2 ≤ l.toNat) (bad : o ≠ expected) :
      Parses expected cap (0x55 :: l :: 0x00 :: o :: rest) (.err .invalidResponseOpcode) rest
  | responseTooLarge (l : Byte) (rest : List Byte) (len : 2 ≤ l.toNat) (bad : cap.toNat < l.toNat - 2) :
      Parses expected cap (0x55 :: l :: 0x00 :: expected :: rest) (.err .responseTooLarge) rest
  | ok (l : Byte) (payload rest : List Byte) (len : l.toNat = payload.length + 2) (fits : payload.length ≤ cap.toNat) :
      Parses expected cap (0x55 :: l :: 0x00 :: expected :: (payload ++ rest)) (.ok payload) rest

/-! ## Conversations: scripted runs of framing operations (95_test_vectors section 0) -/

/-- One framing operation and the chip's and the timer's answers to it. -/
structure Turn where
  /-- the request's bytes; none for a wait -/
  sent : List Byte
  expected : Byte
  cap : Byte
  hold : Bool
  /-- what the timer is armed with -/
  tmo : Half
  /-- the rounds in which line and timer both answer false -/
  rounds : Nat
  /-- the response bytes that are exchanged -/
  received : List Byte
  reply : Reply
  /-- `DLY(T_RETRY)` precedes it (R192) -/
  retry : Bool
  deriving DecidableEq, Repr

/-- The line becomes active in the end; else the timer expires. -/
def Turn.answered (c : Turn) : Bool := decide (c.reply ≠ .err .timeout)

/-- The levels the operation polls (R143). -/
def Turn.levels (c : Turn) : List Bool := List.replicate c.rounds false ++ [c.answered]

/-- Its polls, newest first. -/
def Turn.polls (c : Turn) : List Event :=
  (if c.answered then [.sigq true] else [.expq true, .sigq false]) ++
    (List.replicate c.rounds [.expq false, .sigq false]).flatten

/-- All its events, newest first; `ignored` is what the chip answers while the request is sent. -/
def Turn.events (p : Params) (c : Turn) (ignored : List Byte) : List Event :=
  (if c.reply.isErr || !c.hold then [.unsel] else []) ++ recvEvents p.dummy c.received ++ c.polls ++ [.arm c.tmo] ++
    sentEvents c.sent ignored ++ [.sel] ++ (if c.retry then [.dly .retry] else [])

/-- The reply is what R144 makes of the answers: `Timeout` without a byte, else the parse of exactly the bytes exchanged. -/
def Turn.Valid (c : Turn) : Prop :=
  (c.reply = .err .timeout ∧ c.received = []) ∨ Parses c.expected c.cap c.received c.reply []

/-- The run of a command with these answers. -/
def Command.turn (p : Params) (c : Command) (rounds : Nat) (received : List Byte) (reply : Reply) : Turn :=
  ⟨requestFrame c.opcode c.payload, c.opcode, c.cap, c.hold, p.tCmd, rounds, received, reply, false⟩

/-- The run of a command whose accepted response is there at the first poll. -/
def Command.accepted (p : Params) (c : Command) (payload : List Byte) : Turn :=
  c.turn p 0 (responseFrame c.opcode payload) (.ok payload)

/-- The run of a WAITRESP with these answers (R150). -/
def waitTurn (p : Params) (tmo : Half) (hold : Bool) (rounds : Nat) (received : List Byte) (reply : Reply) : Turn :=
  ⟨[], p.opCalibrateMode, 0, hold, tmo, rounds, received, reply, false⟩

/-- A wait of CALWAIT that is acknowledged (R220). -/
def acknowledged (p : Params) (tmo : Half) (rounds : Nat) : Turn :=
  waitTurn p tmo true rounds (responseFrame p.opCalibrateMode []) (.ok [])

/-- The timer lets this run happen: it is answered at its first poll, and the timer is not asked; or the timer's next draw is at least
its rounds, and exactly its rounds if it expires (R143, R277). -/
def Turn.timed (c : Turn) (counts : List Nat) : Prop :=
  (c.rounds = 0 ∧ c.answered = true) ∨ ∃ n, counts.head? = some n ∧ c.rounds ≤ n ∧ (c.answered = false → n = c.rounds)

/-- The timer lets these runs happen one after another, each with a draw of its own (R143 arms it anew). -/
def TimedAll : List Turn → List Nat → Prop
  | [], _ => True
  | c :: turns, counts => c.timed counts ∧ TimedAll turns counts.tail

/-- The chip's scripts begin with the answers of these runs, and the timer lets them happen. What follows is open, and so are the
bytes the chip answers while a request is sent. -/
def Answers (s : State) (turns : List Turn) (sig : List Bool) (rx : List Byte) : Prop :=
  (∀ c ∈ turns, c.Valid) ∧ s.env.sig = turns.flatMap Turn.levels ++ sig ∧ s.env.rx = turns.flatMap Turn.received ++ rx ∧
  TimedAll turns s.env.counts

/-- These are the events, newest first, of these runs one after another, whatever the chip answers to the requests' bytes. -/
inductive Conversation (p : Params) : List Turn → List Event → Prop where
  | nil : Conversation p [] []
  | cons (c : Turn) (turns : List Turn) (ignored : List Byte) (later : List Event) (all : ignored.length = c.sent.length)
      (rest : Conversation p turns later) : Conversation p (c :: turns) (later ++ c.events p ignored)

/-- Disable-touch within INIT and its outcome (R192): run again once, after `DLY(T_RETRY)`, on the cancel status alone. -/
inductive DisableTouchRun (p : Params) : List Turn → Bool → Prop where
  | once (n : Nat) (received : List Byte) (r : Reply) (other : r ≠ .err (.chipStatus p.statusCancel)) :
      DisableTouchRun p [(cDisableTouch p).turn p n received r] (!r.isErr)
  | resent (n n2 : Nat) (received received2 : List Byte) (r : Reply) :
      DisableTouchRun p [(cDisableTouch p).turn p n received (.err (.chipStatus p.statusCancel)),
        { (cDisableTouch p).turn p n2 received2 r with retry := true }] (!r.isErr)

/-- One attempt of INIT, its outcome, and the payloads its offset query stored (R174, R191): the first failing command ends it. -/
inductive InitAttemptRun (p : Params) : List Turn → Bool → List (List Byte) → Prop where
  | disableFails (turns : List Turn) (d : DisableTouchRun p turns false) : InitAttemptRun p turns false []
  | offsetFails (turns : List Turn) (n : Nat) (received : List Byte) (e : ProtocolError) (d : DisableTouchRun p turns true) :
      InitAttemptRun p (turns ++ [(cRegStart p).turn p n received (.err e)]) false []
  | enable (turns : List Turn) (n n2 : Nat) (received received2 offset : List Byte) (r : Reply) (d : DisableTouchRun p turns true) :
      InitAttemptRun p (turns ++ [(cRegStart p).turn p n received (.ok offset), (cEnableTouch p).turn p n2 received2 r]) (!r.isErr)
        [offset]

/-- The command that writes `INSET` at an offset (R212, R214). -/
def insetWrite (p : Params) (offset : Byte) : Command := cRegWrite p (p.regCalInset + offset) [p.inset]

/-- One attempt of CALSTART, its outcome, and the payloads its offset query stored (R174, R212); a response to the offset query
without a byte, after which the address written is any, is left out. -/
inductive CalAttemptRun (p : Params) : List Turn → Bool → List (List Byte) → Prop where
  | disableFails (n : Nat) (received : List Byte) (e : ProtocolError) :
      CalAttemptRun p [(cDisableTouch p).turn p n received (.err e)] false []
  | offsetFails (n n2 : Nat) (received received2 : List Byte) (e : ProtocolError) :
      CalAttemptRun p [(cDisableTouch p).turn p n received (.ok []), (cRegStart p).turn p n2 received2 (.err e)] false []
  | writeFails (n n2 n3 : Nat) (received received2 received3 : List Byte) (offset : Byte) (e : ProtocolError) :
      CalAttemptRun p [(cDisableTouch p).turn p n received (.ok []), (cRegStart p).turn p n2 received2 (.ok [offset]),
        (insetWrite p offset).turn p n3 received3 (.err e)] false [[offset]]
  | mode (n n2 n3 n4 : Nat) (received received2 received3 received4 : List Byte) (offset : Byte) (r : Reply) :
      CalAttemptRun p [(cDisableTouch p).turn p n received (.ok []), (cRegStart p).turn p n2 received2 (.ok [offset]),
        (insetWrite p offset).turn p n3 received3 (.ok []), (cCalibrateMode p p.calType).turn p n4 received4 r] (!r.isErr) [[offset]]

/-- The retry policy (R191, R212, R259): one attempt that succeeds, or one that fails and a second, whose outcome is the result; the
payloads stored are those of the attempts made, in order. -/
inductive AtMostTwo (attempt : List Turn → Bool → List (List Byte) → Prop) : List Turn → Bool → List (List Byte) → Prop where
  | first (turns : List Turn) (stored : List (List Byte)) (h : attempt turns true stored) : AtMostTwo attempt turns true stored
  | second (turns turns2 : List Turn) (b : Bool) (stored stored2 : List (List Byte)) (h : attempt turns false stored)
      (h2 : attempt turns2 b stored2) : AtMostTwo attempt (turns ++ turns2) b (stored ++ stored2)

/-- One CALWAIT from an active index, and its outcome (R211, R220, R221): the acknowledgement of the point; at the last point then
the commit acknowledgement and enable-touch. The first that fails ends it with `None`. -/
inductive CalwaitRun (p : Params) (tmo : Half) (point : BitVec 3) : List Turn → Option Bool → Prop where
  | pointFails (n : Nat) (received : List Byte) (e : ProtocolError) :
      CalwaitRun p tmo point [waitTurn p tmo true n received (.err e)] none
  | morePoints (n : Nat) (early : point.toNat < 3) : CalwaitRun p tmo point [acknowledged p tmo n] (some true)
  | commitFails (n n2 : Nat) (received : List Byte) (e : ProtocolError) (last : point = 3) :
      CalwaitRun p tmo point [acknowledged p tmo n, waitTurn p tmo true n2 received (.err e)] none
  | enableFails (n n2 n3 : Nat) (received : List Byte) (e : ProtocolError) (last : point = 3) :
      CalwaitRun p tmo point [acknowledged p tmo n, acknowledged p tmo n2, (cEnableTouch p).turn p n3 received (.err e)] none
  | finished (n n2 n3 : Nat) (received : List Byte) (last : point = 3) :
      CalwaitRun p tmo point [acknowledged p tmo n, acknowledged p tmo n2, (cEnableTouch p).turn p n3 received (.ok [])] (some false)

/-- `S.offset` is what the last payload stored, or its old value if there was none (R174, R193 (b)); a payload without a byte
leaves any value (R178). -/
def OffsetAfter (old : Byte) (stored : List (List Byte)) (new : Byte) : Prop :=
  match stored.getLast? with
  | none => new = old
  | some (b :: _) => new = b
  | some [] => True

/-- The operations that use the bus and are not the calibration's own (R301), at the port or as a request frame. -/
def usesBus : Instr → Bool
  | .getVersion | .enableTouch | .disableTouch | .calibrateMode _ | .regStart | .regRead _ _ | .regWrite _ _ | .eepromWrite
  | .reqFrame _ _ | .cmd _ _ _ _ | .waitresp _ _ | .init _ _ _ | .setreg _ _ | .regdump => true
  | .rspFrame _ _ _ _ | .pktPenDown _ _ _ _ _ | .pktPenUp _ _ _ _ _ | .pktInvalid _ _ _ _ _
  | .read | .calstart | .calpoint | .calwait _
  | .reserved0 | .reservedA | .reservedB | .reservedC | .reservedD | .reservedE | .reservedF
  | .select | .unselect | .xchg _ | .decode => false

/-- A run of the engine (R13): host operations and DECODE activations one after another, each returned before the next. -/
inductive Run : List Instr → State → State → Prop where
  | nil (s : State) : Run [] s s
  | cons (i : Instr) (rest : List Instr) (s u t : State) (operation : i.channel = some .host ∨ i = .decode)
      (first : exec i s = .next u) (later : Run rest u t) : Run (i :: rest) s t

/-- The host itself asks that chip-select stay asserted (R140, R150). -/
def AsksToHold (i : Instr) : Prop :=
  (∃ opcode payload cap, i = .cmd opcode payload cap true) ∨ ∃ tmo, i = .waitresp tmo true

/-- What one packet makes of `S.current` (R233, R234): a list that is no packet and an invalid pen byte change nothing. -/
def packetResult (width height : Half) (rotated : Bool) (c : Coord) (pkt : List Byte) : Coord :=
  match pkt with
  | [pen, xlo, xhi, ylo, yhi] =>
    match penState pen with
    | some touched => packetCoord width height rotated touched xlo xhi ylo yhi
    | none => c
  | _ => c

end Sys2Proof.Machine
end

