-- ==== Sys2Proof/Certificates/Slice0/Obligations.lean ====
section
/-! DEFINITION. What is claimed of the engine, for the provers. Each statement's docstring names the rule it follows; every
statement holds for every value of the parameters (they are a field of the state) and for every answer of the chip and the timer
(the scripts are fields, what follows them is free). -/

open Sys2Proof Sys2Proof.Machine

/-! ## Reset, the step, the port -/

/-- R39, R291: the state after reset, the mode it means, and an engine that does nothing until a stimulus comes. -/
def Obligations.ResetStateIsAsTabulated : Prop :=
  State.reset.cs = false ∧ State.reset.initialized = false ∧ State.reset.pointIndex = 5 ∧
  State.reset.current = ⟨0, 0, false⟩ ∧ State.reset.lastReported = ⟨0, 0, false⟩ ∧
  State.reset.seq = .idle ∧ State.reset.op = .none ∧
  State.reset.mode = .uninitialized ∧ State.reset.decodeEnabled = false ∧ step State.reset = .next State.reset

/-- R24, R26, R231: a step takes the next stimulus. A word that decodes runs as exec of its instruction on the state without that
stimulus (the chip's frames at any moment, and what follows them pending; the others when the engine is idle). Bytes that decode
to nothing are refused by name at the host port and as a request: the model's choice (log 10, DESIGN CHOICE), for bytes that R91,
R93, R110 and R111 give no reading; they are offered as they are where the chip answers them (R101, R144; logs 19 and 20). The
trigger runs DECODE; the event-by-event stimuli begin the operation; with no stimulus the sequencer has the step. The stimuli are
the model's (log 12). -/
def Obligations.StepRunsTheDecodedInstruction : Prop :=
  (∀ (s : State) (ch : Channel) (bytes tail : List Byte) (rest : List Stimulus) (i : Instr),
    s.inputs = .word ch bytes :: rest → decode s.cfg ch bytes = .ok i tail →
    ((ch = .host ∨ ch = .wire) → s.seq = .idle → step s = exec i { s with inputs := rest }) ∧
    ((ch = .rsp ∨ ch = .pkt) → step s = exec i { s with inputs := rest, env := { s.env with rx := tail ++ s.env.rx } })) ∧
  (∀ (s : State) (ch : Channel) (bytes : List Byte) (rest : List Stimulus) (e : DecodeError),
    s.inputs = .word ch bytes :: rest → decode s.cfg ch bytes = .error e →
    ((ch = .host ∨ ch = .wire) → s.seq = .idle → step s = .refused (.noEncoding e)) ∧
    (ch = .rsp → step s = respond bytes { s with inputs := rest }) ∧
    (ch = .pkt → step s =
      .next { s with inputs := rest, env := { s.env with rx := bytes ++ s.env.rx, sig := true :: s.env.sig } })) ∧
  (∀ (s : State) (rest : List Stimulus), s.inputs = .trigger :: rest → step s = exec .decode { s with inputs := rest }) ∧
  (∀ (s : State) (bytes tail : List Byte) (rest : List Stimulus) (i : Instr),
    s.inputs = .start bytes :: rest → s.seq = .idle → decode s.cfg .host bytes = .ok i tail →
    step s = begin i { s with inputs := rest }) ∧
  (∀ (s : State) (rest : List Stimulus), s.inputs = .startTrigger :: rest → step s = begin .decode { s with inputs := rest }) ∧
  (∀ s : State, s.inputs = [] → step s = .next (seqStep s))

/-- Words written out from the spec's encodings (30_encoding R91, R92, R95, R100, R110; program P1, vectors VF15, VW8, VT5)
decode to the instruction they stand for. The operand bytes of the host words are the model's layout (log 10). -/
def Obligations.WrittenOutWordsDecode : Prop :=
  decode Params.default .host [0x03, 0x01, 0x40, 0x00, 0xF0, 0x00] = .ok (.init 320 240 false) [] ∧
  decode Params.default .host [0x04] = .ok .read [] ∧
  decode Params.default .host [0x06] = .ok .calpoint [] ∧
  decode Params.default .wire [0x55, 0x02, 0x14, 0x04] = .ok (.calibrateMode 0x04) [] ∧
  decode Params.default .wire [0x55, 0x04, 0x20, 0x00, 0x2E, 0x01] = .ok (.regRead 0x2E 0x01) [] ∧
  decode Params.default .rsp [0x55, 0x03, 0x00, 0x22, 0x20] = .ok (.rspFrame 0x03 0x00 0x22 [0x20]) [] ∧
  decode Params.default .pkt [0x81, 0x68, 0x07, 0x38, 0x17] = .ok (.pktPenDown 0 0x68 0x07 0x38 0x17) []

/-- R110: decoding an encoded instruction gives it back, whatever follows it, at every operand value the encoding admits and for
every choice of the opcode bytes that keeps them apart (which R7 does not ask of them). The host port's byte layout (log 10) and any
type byte in CALIBRATE_MODE (log 35) are the model's choices. -/
def Obligations.DecodeOfEncode : Prop :=
  ∀ (p : Params) (i : Instr) (ch : Channel) (rest : List Byte),
    p.opcodesDistinct → i.canonical p = true → i.channel = some ch →
    decode p ch (encode p i ++ rest) = .ok i rest

/-- The other direction: what the decoder reads is the encoding of what it answers, so no word has two readings and no bit is
dropped. It needs nothing of the opcode bytes. The model's choices are those of DecodeOfEncode (logs 10 and 35) and,
where opcode bytes coincide, which command a frame is (log 37). -/
def Obligations.EncodeOfDecode : Prop :=
  ∀ (p : Params) (i : Instr) (ch : Channel) (bytes rest : List Byte),
    decode p ch bytes = .ok i rest →
    encode p i ++ rest = bytes ∧ i.channel = some ch ∧ i.wellFormed = true

/-- R110, vector VG6: a reserved select code is not accepted: no state changes, no event. -/
def Obligations.ReservedCodesChangeNothing : Prop :=
  ∀ (s : State) (i : Instr),
    i ∈ [Instr.reserved0, .reservedA, .reservedB, .reservedC, .reservedD, .reservedE, .reservedF] → exec i s = .next s

/-- R300: an operation presented while an operation is in progress is not accepted, changes no state and produces no event. That
a request frame waits in the same way (R66, R140), and that the host goes on presenting while the sequencer has the step, are the
model's reading (logs 12 and 14). -/
def Obligations.BusyEngineAcceptsNothing : Prop :=
  ∀ s : State, s.seq ≠ .idle →
    (∀ i : Instr, (i.channel = some .host ∨ i.channel = some .wire) → exec i s = .next s) ∧
    (∀ (ch : Channel) (bytes : List Byte) (rest : List Stimulus), (ch = .host ∨ ch = .wire) →
      s.inputs = .word ch bytes :: rest → step s = .next (seqStep s) ∧ (seqStep s).inputs = s.inputs) ∧
    (∀ (bytes : List Byte) (rest : List Stimulus),
      s.inputs = .start bytes :: rest → step s = .next (seqStep s) ∧ (seqStep s).inputs = s.inputs)

/-- R301 with the model's refusal (log 15): during a calibration every other bus operation is refused. -/
def Obligations.CalibrationRefusesOtherBusOperations : Prop :=
  ∀ (s : State) (i : Instr), s.seq = .idle → s.mode = .calibrating → usesBus i = true →
    exec i s = .refused .calibrationHeld

/-- R93, R140, R176 (log 16): a request payload over 254 bytes, and a REG_WRITE of no or more than 251 data bytes, are refused. -/
def Obligations.OverlongRequestsAreRefused : Prop :=
  ∀ s : State, s.seq = .idle → s.mode ≠ .calibrating →
    (∀ (opcode cap : Byte) (payload : List Byte) (hold : Bool), 254 < payload.length →
      exec (.cmd opcode payload cap hold) s = .refused .payloadTooLong ∧
      exec (.reqFrame opcode payload) s = .refused .payloadTooLong) ∧
    (∀ (addr : Byte) (data : List Byte), (data = [] ∨ 251 < data.length) →
      exec (.regWrite addr data) s = .refused .regWriteCount)

/-- Every well-formed instruction runs in every idle state, but for a bus operation during a calibration (R301) and an exchange
with chip-select deasserted (R132). That a frame or packet row is an instruction of its own is the model's reading (logs 17 to 20). -/
def Obligations.WellFormedInstructionsComplete : Prop :=
  ∀ (s : State) (i : Instr), s.seq = .idle → i.wellFormed = true →
    (usesBus i = true → s.mode ≠ .calibrating) → ((∃ out, i = .xchg out) → s.cs = true) →
    ∃ t, exec i s = .next t

/-! ## Transport -/

/-- R130, and UNSELECT beside it: the level is written and one event recorded; everything else stays, at either level. Neither has
an encoding. -/
def Obligations.SelectAndUnselectWriteTheLevel : Prop :=
  Instr.select.channel = none ∧ Instr.unselect.channel = none ∧ ∀ s : State,
    exec .select s = .next { s with cs := true, trace := .sel :: s.trace } ∧
    exec .unselect s = .next { s with cs := false, trace := .unsel :: s.trace }

/-- R132: an exchange with chip-select asserted consumes the chip's next byte and records `X(out, in)`; no register changes. With
chip-select deasserted it is not permitted (log 21). -/
def Obligations.ExchangeConsumesOneByte : Prop :=
  ∀ (s : State) (out : Byte),
    (∀ (b : Byte) (rest : List Byte), s.cs = true → s.env.rx = b :: rest →
      exec (.xchg out) s = .next { s with env := { s.env with rx := rest }, trace := .xchg out b :: s.trace }) ∧
    (s.cs = true → ∃ t b, exec (.xchg out) s = .next t ∧ t.trace = .xchg out b :: s.trace ∧
      t = { s with env := t.env, trace := t.trace }) ∧
    (s.cs = false → exec (.xchg out) s = .fault .xchgUnselected)

/-! ## Framing engine -/

/-- R147: `Finish` releases chip-select on any error and unless the caller asked to hold, records the result and answers it; after
CMD or WAITRESP returns, chip-select is asserted exactly when the result is `Ok` and `hold = 1`. After an error `S.resp` is any
value (R252). -/
def Obligations.FinishReleasesUnlessOkAndHold : Prop :=
  (∀ (hold : Bool) (p : List Byte) (s : State), finish hold (.ok p, s) =
    (.ok p, if hold then { s with res := .payload p }
            else { s with cs := false, res := .payload p, trace := .unsel :: s.trace })) ∧
  (∀ (hold : Bool) (e : ProtocolError) (s : State), ∃ (resp : List Byte) (draws : Nat), finish hold (.err e, s) =
    (.err e, { s with cs := false, res := .err e, t := { s.t with resp := resp }, env := { s.env with draws := draws },
                      trace := .unsel :: s.trace })) ∧
  (∀ (s t : State) (opcode cap : Byte) (payload : List Byte) (hold : Bool), s.seq = .idle →
    exec (.cmd opcode payload cap hold) s = .next t → (t.cs = true ↔ (∃ p, t.res = .payload p) ∧ hold = true)) ∧
  (∀ (s t : State) (tmo : Half) (hold : Bool), s.seq = .idle →
    exec (.waitresp tmo hold) s = .next t → (t.cs = true ↔ (∃ p, t.res = .payload p) ∧ hold = true))

/-- R147 for CMD, with R141's frame: whatever the chip and the timer answer, CMD completes; chip-select stays asserted exactly on
`Ok` with `hold`; `S.res` is the reply; the registers are as they were; the request went out byte by byte, each followed by the
inter-byte delay, before the timer was armed with `T_CMD`. -/
def Obligations.CmdCompletesAndReleases : Prop :=
  ∀ (s : State) (opcode cap : Byte) (payload : List Byte) (hold : Bool),
    s.seq = .idle → s.mode ≠ .calibrating → payload.length ≤ 254 →
    ∃ (t : State) (r : Reply) (later : List Event) (ignored : List Byte),
      exec (.cmd opcode payload cap hold) s = .next t ∧ t.res = Result.ofReply r ∧
      (t.cs = true ↔ r.isErr = false ∧ hold = true) ∧ Idle t ∧ SameRegs s t ∧ ignored.length = payload.length + 3 ∧
      t.trace = .ret .cmd (some t.res) :: later ++ .arm s.cfg.tCmd :: sentEvents (requestFrame opcode payload) ignored ++
        .sel :: s.trace

/-- R147 for WAITRESP, with R150: the same without a request, the timer armed with the operand. -/
def Obligations.WaitrespCompletesAndReleases : Prop :=
  ∀ (s : State) (tmo : Half) (hold : Bool), s.seq = .idle → s.mode ≠ .calibrating →
    ∃ (t : State) (r : Reply) (later : List Event),
      exec (.waitresp tmo hold) s = .next t ∧ t.res = Result.ofReply r ∧
      (t.cs = true ↔ r.isErr = false ∧ hold = true) ∧ Idle t ∧ SameRegs s t ∧
      t.trace = .ret .waitresp (some t.res) :: later ++ .arm tmo :: .sel :: s.trace

/-- R143, R144, R145, R250, R254: once the line is seen active (in the first round or after `k` rounds that the timer outlasts),
CMD's reply and the bytes it leaves in the chip are what the parse of the pending bytes gives. -/
def Obligations.CmdParsesTheResponse : Prop :=
  ∀ (s : State) (opcode cap : Byte) (payload : List Byte) (hold : Bool) (k n : Nat) (sig : List Bool) (counts : List Nat)
    (r : Reply) (rest : List Byte),
    s.seq = .idle → s.mode ≠ .calibrating → payload.length ≤ 254 →
    s.env.counts = n :: counts → k ≤ n → s.env.sig = List.replicate k false ++ true :: sig →
    Parses opcode cap s.env.rx r rest →
    ∃ t, exec (.cmd opcode payload cap hold) s = .next t ∧ t.res = Result.ofReply r ∧
      t.cs = (!r.isErr && hold) ∧ t.env.rx = rest ∧ t.env.sig = sig ∧ t.env.counts = counts ∧ Idle t ∧ SameRegs s t

/-- R150, R151: WAITRESP parses the same way, expecting `OP_CALIBRATE_MODE` with capacity 0. -/
def Obligations.WaitrespParsesTheResponse : Prop :=
  ∀ (s : State) (tmo : Half) (hold : Bool) (k n : Nat) (sig : List Bool) (counts : List Nat) (r : Reply) (rest : List Byte),
    s.seq = .idle → s.mode ≠ .calibrating →
    s.env.counts = n :: counts → k ≤ n → s.env.sig = List.replicate k false ++ true :: sig →
    Parses s.cfg.opCalibrateMode 0 s.env.rx r rest →
    ∃ t, exec (.waitresp tmo hold) s = .next t ∧ t.res = Result.ofReply r ∧
      t.cs = (!r.isErr && hold) ∧ t.env.rx = rest ∧ t.env.sig = sig ∧ t.env.counts = counts ∧ Idle t ∧ SameRegs s t

/-- R143, R144, R256: a line inactive in every round until the timer expires gives `Timeout` with chip-select released and no
byte read, whatever the caller asked to hold. -/
def Obligations.SilentChipGivesTimeout : Prop :=
  ∀ (s : State) (n : Nat) (sig : List Bool) (counts : List Nat),
    s.seq = .idle → s.mode ≠ .calibrating → s.env.counts = n :: counts → s.env.sig = List.replicate (n + 1) false ++ sig →
    (∀ (opcode cap : Byte) (payload : List Byte) (hold : Bool), payload.length ≤ 254 →
      ∃ t, exec (.cmd opcode payload cap hold) s = .next t ∧ t.res = .err .timeout ∧ t.cs = false ∧
        t.env.rx = s.env.rx ∧ t.env.sig = sig ∧ Idle t ∧ SameRegs s t) ∧
    (∀ (tmo : Half) (hold : Bool),
      ∃ t, exec (.waitresp tmo hold) s = .next t ∧ t.res = .err .timeout ∧ t.cs = false ∧
        t.env.rx = s.env.rx ∧ t.env.sig = sig ∧ Idle t ∧ SameRegs s t)

/-- R141's example, R142, R134, R132: on an accepted response that is there at the first poll, every event of CMD in order, each
byte sent with the byte the chip answers to it. -/
def Obligations.CmdTraceOnAnsweringChip : Prop :=
  ∀ (s : State) (opcode cap : Byte) (payload reply ignored echo : List Byte) (hold : Bool) (sig : List Bool) (rx : List Byte),
    s.seq = .idle → s.mode ≠ .calibrating → payload.length ≤ 254 →
    Answers s [Command.accepted s.cfg ⟨opcode, payload, cap, hold⟩ reply] sig rx →
    s.env.echo = ignored ++ echo → ignored.length = payload.length + 3 →
    ∃ t, exec (.cmd opcode payload cap hold) s = .next t ∧ t.res = .payload reply ∧ t.cs = hold ∧
      t.env.rx = rx ∧ t.env.sig = sig ∧ t.env.echo = echo ∧ Idle t ∧ SameRegs s t ∧
      t.trace = .ret .cmd (some (.payload reply)) ::
        (if hold then [] else [.unsel]) ++ recvEvents s.cfg.dummy (responseFrame opcode reply) ++
        [.sigq true, .arm s.cfg.tCmd] ++ sentEvents (requestFrame opcode payload) ignored ++ .sel :: s.trace

/-- R91, R142 with the model's reading of the row (log 18): a request frame goes out byte by byte and leaves the engine waiting
for its response with chip-select asserted. -/
def Obligations.RequestFrameGoesOutAndWaits : Prop :=
  ∀ (s : State) (opcode : Byte) (payload : List Byte), s.seq = .idle → s.mode ≠ .calibrating → payload.length ≤ 254 →
    ∃ (t : State) (ignored : List Byte),
      exec (.reqFrame opcode payload) s = .next t ∧ t.seq = .wait ∧ t.op = .cmd ∧ t.cs = true ∧ t.t.expOp = opcode ∧
      t.t.cap = 0xFF ∧ t.t.hold = false ∧ t.res = s.res ∧ t.env.rx = s.env.rx ∧ t.env.sig = s.env.sig ∧ SameRegs s t ∧
      ignored.length = payload.length + 3 ∧
      t.trace = .arm s.cfg.tCmd :: sentEvents (requestFrame opcode payload) ignored ++ .sel :: s.trace

/-- R92, R144 with the model's reading of the row (log 19): a response frame that reaches an engine waiting in a host's CMD or
WAITRESP ends it with the reply its parse gives. One that reaches the CMD or WAITRESP of any operation (R25: `S.op` is the
composite's), whatever its bytes, makes the engine what its sequencer makes of it event by event: the reply goes back to the
caller, which goes on. At any other moment it stays pending and the line is active. -/
def Obligations.ResponseFrameEndsTheWait : Prop :=
  (∀ (s : State) (len status opcode : Byte) (payload rest : List Byte) (r : Reply),
    s.seq = .wait → (s.op = .cmd ∨ s.op = .waitresp) →
    Parses s.t.expOp s.t.cap (0x55 :: len :: status :: opcode :: (payload ++ s.env.rx)) r rest →
    ∃ t, exec (.rspFrame len status opcode payload) s = .next t ∧ t.res = Result.ofReply r ∧
      t.cs = (!r.isErr && s.t.hold && s.cs) ∧ t.env.rx = rest ∧ t.env.sig = s.env.sig ∧ Idle t ∧ SameRegs s t) ∧
  (∀ (s : State) (len status opcode : Byte) (payload : List Byte), s.seq = .wait → s.op ≠ .decode →
    ∃ t n, exec (.rspFrame len status opcode payload) s = .next t ∧
      sameButK (seqRun n { s with env := { s.env with
        rx := 0x55 :: len :: status :: opcode :: (payload ++ s.env.rx), sig := true :: s.env.sig } }) t ∧
      (t.seq = .idle ∨ t.seq = .tx 0 ∨ t.seq = .wait) ∧
      SameRegs { s with
        offset := t.offset, pointIndex := t.pointIndex, initialized := t.initialized, sink := t.sink } t) ∧
  (∀ (s : State) (len status opcode : Byte) (payload : List Byte), (s.seq ≠ .wait ∨ s.op = .decode) →
    exec (.rspFrame len status opcode payload) s =
      .next { s with env := { s.env with rx := 0x55 :: len :: status :: opcode :: (payload ++ s.env.rx), sig := true :: s.env.sig } })

/-! ## Wire commands -/

/-- R170 to R177: each wire command sends its opcode and payload as one request frame and nothing else, and its reply is what the
chip answers to it, in whatever round the line becomes active or the timer expires, with its capacity; chip-select is held by
CALIBRATE_MODE alone, on success. Three clauses are the model's choice: that CALIBRATE_MODE with a type byte other than `CAL_TYPE`,
the one R100 and R173 name, is the same command and holds (log 35); that the row of REG_START also writes the offset, its caller's
store (ReadOffsetIsStored), and that no row but EEPROM_WRITE's has an event RET (log 17). -/
def Obligations.WireCommandsAreTheirCmd : Prop :=
  ∀ (s : State) (calType addr count : Byte) (data : List Byte) (i : Instr) (opcode cap : Byte) (payload : List Byte) (hold : Bool)
    (n : Nat) (received : List Byte) (r : Reply) (turn : Turn) (sig : List Bool) (rx : List Byte),
    s.seq = .idle → s.mode ≠ .calibrating → 1 ≤ data.length → data.length ≤ 251 →
    (i, opcode, payload, cap, hold) ∈
      [(Instr.getVersion, s.cfg.opGetVersion, [], s.cfg.versionLen, false),
       (.enableTouch, s.cfg.opEnableTouch, [], 0, false),
       (.disableTouch, s.cfg.opDisableTouch, [], 0, false),
       (.calibrateMode calType, s.cfg.opCalibrateMode, [calType], 0, true),
       (.regStart, s.cfg.opRegStart, [], 1, false),
       (.regRead addr count, s.cfg.opRegRead, [0x00, addr, count], count, false),
       (.regWrite addr data, s.cfg.opRegWrite, [0x00, addr, BitVec.ofNat 8 data.length] ++ data, 0, false),
       (.eepromWrite, s.cfg.opEepromWrite, [], 0, false)] →
    turn = Command.turn s.cfg ⟨opcode, payload, cap, hold⟩ n received r → Answers s [turn] sig rx →
    ∃ t events, exec i s = .next t ∧ t.res = Result.ofReply r ∧ t.cs = (!r.isErr && hold) ∧
      t.env.rx = rx ∧ t.env.sig = sig ∧ t.seq = .idle ∧ SameRegs { s with offset := t.offset } t ∧
      (i ≠ .regStart → t.offset = s.offset) ∧ Conversation s.cfg [turn] events ∧
      t.trace = (if i = .eepromWrite then [.ret .cmd (some t.res)] else []) ++ events ++ s.trace

/-- The same rows, whatever the chip answers: they complete, release chip-select unless CALIBRATE_MODE succeeded, and leave the
registers alone (R141, R147). The model's choice: that CALIBRATE_MODE holds for a type byte other than `CAL_TYPE` too (log 35), and
that the row of REG_START writes the offset (log 17). -/
def Obligations.WireCommandsCompleteOnAnyChip : Prop :=
  ∀ (s : State) (i : Instr), s.seq = .idle → s.mode ≠ .calibrating → i.wellFormed = true → i.channel = some .wire →
    (∀ opcode payload, i ≠ .reqFrame opcode payload) →
    ∃ (t : State) (r : Reply), exec i s = .next t ∧ t.res = Result.ofReply r ∧
      (t.cs = true ↔ r.isErr = false ∧ ∃ calType, i = .calibrateMode calType) ∧ t.seq = .idle ∧
      SameRegs { s with offset := t.offset } t ∧ (i ≠ .regStart → t.offset = s.offset)

/-- R174: on `Ok` the caller of REG_START stores the one payload byte; on any error, `Timeout` included, the offset stays; in
whatever round the line becomes active or the timer expires. That the row includes this
store is the model's choice (log 17). (With no payload byte the
offset is any value, R178: nothing is claimed of it.) -/
def Obligations.ReadOffsetIsStored : Prop :=
  (∀ (s : State) (b : Byte) (n : Nat) (received : List Byte) (sig : List Bool) (rx : List Byte),
    s.seq = .idle → s.mode ≠ .calibrating → Answers s [(cRegStart s.cfg).turn s.cfg n received (.ok [b])] sig rx →
    ∃ t, exec .regStart s = .next t ∧ t.res = .payload [b] ∧ t.offset = b ∧ t.cs = false ∧ t.env.rx = rx ∧ t.env.sig = sig ∧
      SameRegs { s with offset := b } t) ∧
  (∀ (s : State) (e : ProtocolError) (n : Nat) (received : List Byte) (sig : List Bool) (rx : List Byte),
    s.seq = .idle → s.mode ≠ .calibrating → Answers s [(cRegStart s.cfg).turn s.cfg n received (.err e)] sig rx →
    ∃ t, exec .regStart s = .next t ∧ t.res = .err e ∧ t.offset = s.offset ∧ t.cs = false ∧ t.env.rx = rx ∧ t.env.sig = sig ∧
      SameRegs s t)

/-! ## Session -/

/-- R190, R191, R193: INIT completes whatever the chip answers; it stores its operands, ends initialised exactly when it reports
true, and releases chip-select; nothing else changes but the offset. -/
def Obligations.InitCompletes : Prop :=
  ∀ (s : State) (width height : Half) (rotated : Bool), s.seq = .idle → s.mode ≠ .calibrating →
    ∃ (t : State) (b : Bool), exec (.init width height rotated) s = .next t ∧ t.res = .bool b ∧ t.cs = false ∧ Idle t ∧
      SameRegs { s with width := width, height := height, rotated := rotated, initialized := b, offset := t.offset } t

/-- R191, R194, program P1: on a chip that answers disable-touch, the offset query and enable-touch, INIT succeeds with exactly
those three commands, and stores the offset. -/
def Obligations.InitOnAnsweringChip : Prop :=
  ∀ (s : State) (width height : Half) (rotated : Bool) (offset : Byte) (sig : List Bool) (rx : List Byte),
    s.seq = .idle → s.mode ≠ .calibrating →
    Answers s [(cDisableTouch s.cfg).accepted s.cfg [], (cRegStart s.cfg).accepted s.cfg [offset],
      (cEnableTouch s.cfg).accepted s.cfg []] sig rx →
    ∃ t events, exec (.init width height rotated) s = .next t ∧ t.res = .bool true ∧ t.cs = false ∧ Idle t ∧ t.env.rx = rx ∧
      SameRegs { s with width := width, height := height, rotated := rotated, initialized := true, offset := offset } t ∧
      Conversation s.cfg [(cDisableTouch s.cfg).accepted s.cfg [], (cRegStart s.cfg).accepted s.cfg [offset],
        (cEnableTouch s.cfg).accepted s.cfg []] events ∧
      t.trace = .ret .init (some (.bool true)) :: events ++ s.trace

/-- R192: a cancel status on disable-touch is answered by one delay `T_RETRY` and one resend of that command within the same
attempt; a second cancel is an ordinary failure, so one INIT sends disable-touch at most four times. -/
def Obligations.InitResendsAfterCancel : Prop :=
  ∀ (s : State) (width height : Half) (rotated : Bool) (sig : List Bool) (rx : List Byte) (cancelled resent : List Byte → Turn),
    s.seq = .idle → s.mode ≠ .calibrating →
    cancelled = (fun received => (cDisableTouch s.cfg).turn s.cfg 0 received (.err (.chipStatus s.cfg.statusCancel))) →
    resent = (fun received => { cancelled received with retry := true }) →
    (∀ (r1 : List Byte) (offset : Byte) (turns : List Turn),
      turns = [cancelled r1, { (cDisableTouch s.cfg).accepted s.cfg [] with retry := true },
        (cRegStart s.cfg).accepted s.cfg [offset], (cEnableTouch s.cfg).accepted s.cfg []] → Answers s turns sig rx →
      ∃ t events, exec (.init width height rotated) s = .next t ∧ t.res = .bool true ∧ t.cs = false ∧ t.env.rx = rx ∧
        t.offset = offset ∧ t.initialized = true ∧ Conversation s.cfg turns events ∧
        t.trace = .ret .init (some (.bool true)) :: events ++ s.trace) ∧
    (∀ (r1 r2 r3 r4 : List Byte) (turns : List Turn),
      turns = [cancelled r1, resent r2, cancelled r3, resent r4] → Answers s turns sig rx →
      ∃ t events, exec (.init width height rotated) s = .next t ∧ t.res = .bool false ∧ t.cs = false ∧ t.env.rx = rx ∧
        t.offset = s.offset ∧ t.initialized = false ∧ Conversation s.cfg turns events ∧
        t.trace = .ret .init (some (.bool false)) :: events ++ s.trace)

/-- R191, R193, R212, R213, R259: INIT and CALSTART end with the first attempt that succeeds; a failed first attempt, at whichever
command and by whichever error, is followed by a second from disable-touch, whose outcome is the result, and by no third; the trace
is that of those attempts; `S.offset` is what the last successful offset query stored, or its old value (R193 (b)). -/
def Obligations.AttemptsAreRetriedOnceFromTheTop : Prop :=
  (∀ (s : State) (width height : Half) (rotated : Bool) (turns : List Turn) (b : Bool)
    (stored : List (List Byte)) (sig : List Bool) (rx : List Byte),
    s.seq = .idle → s.mode ≠ .calibrating → AtMostTwo (InitAttemptRun s.cfg) turns b stored → Answers s turns sig rx →
    ∃ t events, exec (.init width height rotated) s = .next t ∧ t.res = .bool b ∧ t.initialized = b ∧ t.cs = false ∧ Idle t ∧
      OffsetAfter s.offset stored t.offset ∧ t.env.rx = rx ∧ t.env.sig = sig ∧ Conversation s.cfg turns events ∧
      t.trace = .ret .init (some (.bool b)) :: events ++ s.trace) ∧
  (∀ (s : State) (turns : List Turn) (b : Bool) (stored : List (List Byte)) (sig : List Bool) (rx : List Byte),
    s.seq = .idle → s.initialized = true → AtMostTwo (CalAttemptRun s.cfg) turns b stored → Answers s turns sig rx →
    ∃ t events, exec .calstart s = .next t ∧ t.res = .bool b ∧ t.pointIndex = (if b then 0 else 5) ∧ t.cs = b ∧ Idle t ∧
      OffsetAfter s.offset stored t.offset ∧ t.env.rx = rx ∧ t.env.sig = sig ∧ Conversation s.cfg turns events ∧
      t.trace = .ret .calstart (some (.bool b)) :: events ++ s.trace)

/-- R195, R74: SETREG without a session is `NotReady` and does nothing else; with one it is exactly one REG_WRITE of one byte to
`reg + S.offset` (modulo 256), in whatever round the line becomes active or the timer expires: its reply is the result (`Ok[]` as
`Ok`), and the trace is that of the one command, and RET. That `NotReady` leaves chip-select as it was is the model's reading
(log 40). -/
def Obligations.SetregWritesOneRegister : Prop :=
  ∀ (s : State) (reg value : Byte), s.seq = .idle →
    (s.initialized = false → exec (.setreg reg value) s =
      .next { s with res := .notReady, op := .none, trace := .ret .setreg (some .notReady) :: s.trace }) ∧
    (∀ (n : Nat) (received : List Byte) (r : Reply) (write : Turn) (sig : List Bool) (rx : List Byte), s.mode = .ready →
      write = Command.turn s.cfg ⟨s.cfg.opRegWrite, [0x00, reg + s.offset, 0x01, value], 0, false⟩ n received r →
      Answers s [write] sig rx →
      ∃ t events, exec (.setreg reg value) s = .next t ∧ t.res = (match r with | .ok _ => .ok | .err e => .err e) ∧
        t.cs = false ∧ t.env.rx = rx ∧ t.env.sig = sig ∧ Idle t ∧ SameRegs s t ∧ Conversation s.cfg [write] events ∧
        t.trace = .ret .setreg (some t.res) :: events ++ s.trace)

/-- R195, R253: SETREG completes on any chip and releases chip-select. -/
def Obligations.SetregCompletes : Prop :=
  ∀ (s : State) (reg value : Byte), s.seq = .idle → s.mode = .ready →
    ∃ (t : State) (r : Reply), exec (.setreg reg value) s = .next t ∧ t.res = Result.ofSetreg r ∧ t.cs = false ∧ Idle t ∧
      SameRegs s t

/-- R197: REGDUMP "does not corrupt driver state", whatever the chip answers: every register keeps its value, chip-select is
released, and the sink gets the offset and one reply a step, a failed step included. Without a session it returns at once, with
chip-select as it was: the model's reading (log 40). -/
def Obligations.RegdumpKeepsDriverState : Prop :=
  ∀ s : State, s.seq = .idle →
    (s.initialized = false → exec .regdump s = .next { s with op := .none, trace := .ret .regdump none :: s.trace }) ∧
    (s.mode = .ready → ∃ (t : State) (replies : List Reply), exec .regdump s = .next t ∧ t.cs = false ∧ Idle t ∧
      replies.length = 1 + s.cfg.dumpRegs.length ∧ t.sink = replies.map SinkItem.reply ++ .offset s.offset :: s.sink ∧
      SameRegs { s with sink := t.sink } t)

/-- R197, R74, vector VS12: REGDUMP sends GET_VERSION and then one REG_READ of one byte to `reg + S.offset` for each register of
`DUMP_REGS`, in order, whatever each of them is answered, and hands the offset and every reply to the sink; the trace is that of
those commands. -/
def Obligations.RegdumpReadsEachRegister : Prop :=
  ∀ (s : State) (n : Nat) (received : List Byte) (version : Reply) (answers : List (Nat × List Byte × Reply)) (turns : List Turn)
    (sig : List Bool) (rx : List Byte),
    s.seq = .idle → s.mode = .ready → answers.length = s.cfg.dumpRegs.length →
    turns = (cGetVersion s.cfg).turn s.cfg n received version ::
      (s.cfg.dumpRegs.zip answers).map (fun x =>
        Command.turn s.cfg ⟨s.cfg.opRegRead, [0x00, x.1 + s.offset, 0x01], 1, false⟩ x.2.1 x.2.2.1 x.2.2.2) →
    Answers s turns sig rx →
    ∃ t events, exec .regdump s = .next t ∧ t.env.rx = rx ∧ t.env.sig = sig ∧ t.cs = false ∧
      t.sink = (answers.reverse.map (fun x => SinkItem.reply x.2.2)) ++ .reply version :: .offset s.offset :: s.sink ∧
      Conversation s.cfg turns events ∧ t.trace = .ret .regdump none :: events ++ s.trace

/-! ## Calibration -/

/-- R211, R212, R224: what CALSTART makes of the index and of chip-select, whatever the chip answers. That it leaves chip-select as
it was without a session is the model's reading (log 40). -/
def Obligations.CalstartTransitions : Prop :=
  ∀ s : State, s.seq = .idle →
    (s.initialized = true → ∃ (t : State) (b : Bool), exec .calstart s = .next t ∧ t.res = .bool b ∧
      t.pointIndex = (if b then 0 else 5) ∧ t.cs = b ∧ Idle t ∧
      SameRegs { s with pointIndex := t.pointIndex, offset := t.offset } t) ∧
    (s.initialized = false → exec .calstart s =
      .next { s with res := .bool false, op := .none, trace := .ret .calstart (some (.bool false)) :: s.trace })

/-- R211, R220, R221, R223, R224: what CALWAIT makes of the index and of chip-select. Whatever the chip and the timer answer it
completes with one of the outcomes of its index. Which of their answers, in whatever rounds, give which outcome is CalwaitRun:
`None` exactly when the wait, at the last point the commit wait or enable-touch, fails; the trace is that of the operations run,
with CalFail's `UNSEL` after a failure. -/
def Obligations.CalwaitTransitions : Prop :=
  ∀ (s : State) (tmo : Half), s.seq = .idle →
    (s.pointIndex.toNat < 3 → ∃ t, exec (.calwait tmo) s = .next t ∧
      ((t.res = .more true ∧ t.pointIndex = s.pointIndex + 1 ∧ t.cs = true) ∨
        (t.res = .none ∧ t.pointIndex = 5 ∧ t.cs = false)) ∧
      Idle t ∧ SameRegs { s with pointIndex := t.pointIndex } t) ∧
    (s.pointIndex = 3 → ∃ t, exec (.calwait tmo) s = .next t ∧
      ((t.res = .more false ∧ t.pointIndex = 4 ∧ t.cs = false) ∨ (t.res = .none ∧ t.pointIndex = 5 ∧ t.cs = false)) ∧
      Idle t ∧ SameRegs { s with pointIndex := t.pointIndex } t) ∧
    (∀ (turns : List Turn) (outcome : Option Bool) (sig : List Bool) (rx : List Byte), s.pointIndex.toNat ≤ 3 →
      CalwaitRun s.cfg tmo s.pointIndex turns outcome → Answers s turns sig rx →
      ∃ t events, exec (.calwait tmo) s = .next t ∧
        (t.res, t.pointIndex, t.cs) =
          (match outcome with
          | none => (.none, 5, false)
          | some true => (.more true, s.pointIndex + 1, true)
          | some false => (.more false, 4, false)) ∧
        t.env.rx = rx ∧ t.env.sig = sig ∧ Idle t ∧ SameRegs { s with pointIndex := t.pointIndex } t ∧
        Conversation s.cfg turns events ∧
        t.trace = .ret .calwait (some t.res) :: (if outcome = none then [.unsel] else []) ++ events ++ s.trace) ∧
    (3 < s.pointIndex.toNat → exec (.calwait tmo) s =
      .next { s with pointIndex := 5, cs := false, res := .none, op := .none,
                     trace := .ret .calwait (some .none) :: .unsel :: s.trace })

/-- R212, R214, R215: on a chip that answers the four commands, CALSTART succeeds with exactly those four, writes `INSET` to the
calibration-insets register at the offset just read, and holds chip-select. -/
def Obligations.CalstartOnAnsweringChip : Prop :=
  ∀ (s : State) (offset : Byte) (turns : List Turn) (sig : List Bool) (rx : List Byte), s.seq = .idle → s.initialized = true →
    turns = [(cDisableTouch s.cfg).accepted s.cfg [], (cRegStart s.cfg).accepted s.cfg [offset],
      Command.accepted s.cfg ⟨s.cfg.opRegWrite, [0x00, s.cfg.regCalInset + offset, 0x01, s.cfg.inset], 0, false⟩ [],
      Command.accepted s.cfg ⟨s.cfg.opCalibrateMode, [s.cfg.calType], 0, true⟩ []] →
    Answers s turns sig rx →
    ∃ t events, exec .calstart s = .next t ∧ t.res = .bool true ∧ t.pointIndex = 0 ∧ t.offset = offset ∧ t.cs = true ∧
      t.env.rx = rx ∧ Idle t ∧ SameRegs { s with pointIndex := 0, offset := offset } t ∧
      Conversation s.cfg turns events ∧ t.trace = .ret .calstart (some (.bool true)) :: events ++ s.trace

/-- R220, R221, R222, R223: from an active index 0, on a chip that acknowledges, after
whatever rounds, four CALWAITs report `true, true, true, false` and
move the index to 1, 2, 3, 4, each after one wait armed with its operand; the fourth then waits for the commit acknowledgement with
the timer armed again with the operand, and sends enable-touch; a fifth fails. -/
def Obligations.FourCalwaitsCompleteACalibration : Prop :=
  ∀ (s : State) (tmo : Half) (n1 n2 n3 n4 n5 n6 : Nat) (received : List Byte) (ack : Nat → Turn) (enable : Turn)
    (sig : List Bool) (rx : List Byte), s.seq = .idle → s.pointIndex = 0 →
    ack = acknowledged s.cfg tmo → enable = (cEnableTouch s.cfg).turn s.cfg n6 received (.ok []) →
    Answers s [ack n1, ack n2, ack n3, ack n4, ack n5, enable] sig rx →
    ∃ t1 t2 t3 t4 t5 last,
      exec (.calwait tmo) s = .next t1 ∧ t1.res = .more true ∧ t1.pointIndex = 1 ∧ t1.cs = true ∧
      t1.trace = .ret .calwait (some (.more true)) :: (ack n1).events s.cfg [] ++ s.trace ∧
      exec (.calwait tmo) t1 = .next t2 ∧ t2.res = .more true ∧ t2.pointIndex = 2 ∧ t2.cs = true ∧
      t2.trace = .ret .calwait (some (.more true)) :: (ack n2).events s.cfg [] ++ t1.trace ∧
      exec (.calwait tmo) t2 = .next t3 ∧ t3.res = .more true ∧ t3.pointIndex = 3 ∧ t3.cs = true ∧
      t3.trace = .ret .calwait (some (.more true)) :: (ack n3).events s.cfg [] ++ t2.trace ∧
      exec (.calwait tmo) t3 = .next t4 ∧ t4.res = .more false ∧ t4.pointIndex = 4 ∧ t4.cs = false ∧ t4.env.rx = rx ∧
      t4.env.sig = sig ∧ Conversation s.cfg [ack n4, ack n5, enable] last ∧
      t4.trace = .ret .calwait (some (.more false)) :: last ++ t3.trace ∧
      exec (.calwait tmo) t4 = .next t5 ∧ t5.res = .none ∧ t5.pointIndex = 5 ∧ t5.cs = false ∧
      t5.trace = .ret .calwait (some .none) :: .unsel :: t4.trace

/-- R216, R217: CALPOINT reports the corner of the index with the margin `floor(dimension * INSET / 400)`, or `None` when no
calibration is active; only `S.res` changes, and there is no bus event. -/
def Obligations.CalpointGivesTheCorner : Prop :=
  ∀ s : State, s.seq = .idle → ∀ (mx my : Nat),
    mx = s.width.toNat * s.cfg.inset.toNat / 400 → my = s.height.toNat * s.cfg.inset.toNat / 400 →
    ∃ r, exec .calpoint s = .next { s with res := r, op := .none, trace := .ret .calpoint (some r) :: s.trace } ∧
      (s.pointIndex = 0 → r = .point (BitVec.ofNat 16 mx) (BitVec.ofNat 16 my)) ∧
      (s.pointIndex = 1 → r = .point (BitVec.ofNat 16 (s.width.toNat - mx)) (BitVec.ofNat 16 my)) ∧
      (s.pointIndex = 2 → r = .point (BitVec.ofNat 16 (s.width.toNat - mx)) (BitVec.ofNat 16 (s.height.toNat - my))) ∧
      (s.pointIndex = 3 → r = .point (BitVec.ofNat 16 mx) (BitVec.ofNat 16 (s.height.toNat - my))) ∧
      (3 < s.pointIndex.toNat → r = .none)

/-- R217, R218 (c): the margin stays inside the dimension, and for dimensions up to 32767 no corner wraps in int16. -/
def Obligations.CornersFitInt16 : Prop :=
  ∀ (pointIndex : BitVec 3) (width height : Half) (inset : Byte) (x y : Half),
    width.toNat ≤ 32767 → height.toNat ≤ 32767 → corner pointIndex width height inset = some (x, y) →
    0 ≤ x.toInt ∧ x.toInt ≤ width.toNat ∧ 0 ≤ y.toInt ∧ y.toInt ≤ height.toNat ∧
    (x.toInt = margin width inset ∨ x.toInt + margin width inset = width.toNat) ∧
    (y.toInt = margin height inset ∨ y.toInt + margin height inset = height.toNat)

/-! ## Touch -/

/-- R96: the pen state of every pen byte. -/
def Obligations.PenStateOfEveryByte : Prop :=
  ∀ pen : Byte, penState pen = if 128 ≤ pen.toNat then some (decide (pen.toNat % 2 = 1)) else none

/-- R233, with the arithmetic of R97, R235 to R237: what one packet makes of the state; everything but `S.current` stays. -/
def Obligations.DecodePacketWritesCurrent : Prop :=
  ∀ (s : State) (pen xlo xhi ylo yhi : Byte) (sx sy : Half),
    sx = BitVec.ofNat 16 (((xhi.toNat % 128) * 128 + xlo.toNat % 128) * s.width.toNat / 4096) →
    sy = BitVec.ofNat 16 (((yhi.toNat % 128) * 128 + ylo.toNat % 128) * s.height.toNat / 4096) →
    (pen &&& 0x81 = 0x81 → decodePacket [pen, xlo, xhi, ylo, yhi] s =
      { s with current := ⟨if s.rotated then sy else sx, if s.rotated then sx else sy, true⟩ }) ∧
    (pen &&& 0x81 = 0x80 → decodePacket [pen, xlo, xhi, ylo, yhi] s =
      { s with current := ⟨if s.rotated then sy else sx, if s.rotated then sx else sy, false⟩ }) ∧
    (pen &&& 0x81 ≠ 0x81 → pen &&& 0x81 ≠ 0x80 → decodePacket [pen, xlo, xhi, ylo, yhi] s = s)

/-- R95, R97, R233, R235, R236, R237 with the model's reading of the rows (log 20): where DECODE is enabled, a pen-down or pen-up
packet stores the scaled coordinate of its two raw axis values, exchanged when rotated, and an invalid one changes no register;
all five bytes are exchanged, under chip-select, which is released. -/
def Obligations.PacketsStoreTheScaledCoordinate : Prop :=
  ∀ (s : State) (xlo xhi ylo yhi : Byte) (sx sy : Half), s.decodeEnabled = true →
    sx = BitVec.ofNat 16 (((xhi.toNat % 128) * 128 + xlo.toNat % 128) * s.width.toNat / 4096) →
    sy = BitVec.ofNat 16 (((yhi.toNat % 128) * 128 + ylo.toNat % 128) * s.height.toNat / 4096) →
    (∀ ignored : BitVec 6, ∃ t, exec (.pktPenDown ignored xlo xhi ylo yhi) s = .next t ∧
      SameRegs { s with current := ⟨if s.rotated then sy else sx, if s.rotated then sx else sy, true⟩ } t ∧
      t.cs = false ∧ t.env = s.env ∧ t.res = s.res ∧ t.seq = s.seq ∧ t.op = s.op ∧
      t.trace = .unsel :: recvEvents s.cfg.dummy [penDownByte ignored, xlo, xhi, ylo, yhi] ++ .sel :: s.trace) ∧
    (∀ ignored : BitVec 6, ∃ t, exec (.pktPenUp ignored xlo xhi ylo yhi) s = .next t ∧
      SameRegs { s with current := ⟨if s.rotated then sy else sx, if s.rotated then sx else sy, false⟩ } t ∧
      t.cs = false ∧ t.env = s.env ∧ t.res = s.res ∧ t.seq = s.seq ∧ t.op = s.op ∧
      t.trace = .unsel :: recvEvents s.cfg.dummy [penUpByte ignored, xlo, xhi, ylo, yhi] ++ .sel :: s.trace) ∧
    (∀ low : BitVec 7, ∃ t, exec (.pktInvalid low xlo xhi ylo yhi) s = .next t ∧
      SameRegs s t ∧ t.cs = false ∧ t.env = s.env ∧ t.res = s.res ∧ t.seq = s.seq ∧ t.op = s.op ∧
      t.trace = .unsel :: recvEvents s.cfg.dummy [penInvalidByte low, xlo, xhi, ylo, yhi] ++ .sel :: s.trace)

/-- R193 (f), R231, R264 with the model's reading of the rows (log 20): where DECODE is masked, a packet stays pending in the chip
and DECODE does nothing. -/
def Obligations.MaskedPacketsWaitInTheChip : Prop :=
  ∀ (s : State) (i : Instr), s.decodeEnabled = false →
    exec .decode s = .next s ∧
    (i.channel = some .pkt → exec i s =
      .next { s with env := { s.env with rx := encode s.cfg i ++ s.env.rx, sig := true :: s.env.sig } })

/-- R232, R234, R236, R239 (i): on a line that stays active for a list of packets, DECODE reads exactly those packets and the last
valid one is `S.current`, whether the line then drops within the timer's bound or stays active and the timer expires; nothing else
changes. That chip-select stays as it was when no packet is read is the model's reading (log 39). -/
def Obligations.DecodeKeepsTheLastValidPacket : Prop :=
  ∀ (s : State) (pkts : List (List Byte)) (n : Nat) (more sig : List Bool) (counts : List Nat) (rx : List Byte),
    s.decodeEnabled = true → (∀ p ∈ pkts, p.length = 5) → s.env.counts = n :: counts →
    (more = [false] ∧ pkts.length ≤ n ∨ more = [true] ∧ pkts.length = n) →
    s.env.sig = List.replicate pkts.length true ++ more ++ sig → s.env.rx = pkts.flatten ++ rx →
    ∃ t last, exec .decode s = .next t ∧
      SameRegs { s with current := pkts.foldl (packetResult s.width s.height s.rotated) s.current } t ∧
      t.cs = (if pkts = [] then s.cs else false) ∧ t.res = s.res ∧ t.seq = s.seq ∧ t.op = s.op ∧
      t.env.rx = rx ∧ t.env.sig = sig ∧ t.env.counts = counts ∧
      (last = if more = [true] then [.expq true, .sigq true] else [.sigq false]) ∧
      t.trace = last ++ (pkts.reverse.flatMap fun p =>
        .unsel :: recvEvents s.cfg.dummy p ++ [.sel, .expq false, .sigq true]) ++ .arm s.cfg.tDec :: s.trace

/-- R232: DECODE completes on any chip, changes `S.current` alone, and never leaves chip-select asserted that it found released
(one that it found asserted it leaves so when it reads no packet: the model's reading, log 39). -/
def Obligations.DecodeCompletes : Prop :=
  ∀ s : State, s.decodeEnabled = true →
    ∃ t, exec .decode s = .next t ∧ SameRegs { s with current := t.current } t ∧ (t.cs = true → s.cs = true) ∧
      t.res = s.res ∧ t.seq = s.seq ∧ t.op = s.op

/-- R235: scaling is exact, non-decreasing, reaches `dimension - 1` at 4095 and `dimension` at 4096, and is not clamped. -/
def Obligations.ScalingReachesTheDimension : Prop :=
  ∀ (dim : Half),
    (∀ a b : Nat, a ≤ b → scale a dim ≤ scale b dim) ∧
    (1 ≤ dim.toNat → dim.toNat ≤ 4096 → scale 4095 dim = dim.toNat - 1) ∧
    scale 4096 dim = dim.toNat ∧ scale 8192 dim = 2 * dim.toNat

/-- R238: for dimensions up to 8191 no stored coordinate wraps, whatever the chip sends. -/
def Obligations.CoordinatesFitInt16 : Prop :=
  ∀ (width height : Half) (touched : Bool) (xlo xhi ylo yhi : Byte), width.toNat ≤ 8191 → height.toNat ≤ 8191 →
    (packetCoord width height false touched xlo xhi ylo yhi).x.toInt = scale (rawAxis xlo xhi) width ∧
    (packetCoord width height false touched xlo xhi ylo yhi).y.toInt = scale (rawAxis ylo yhi) height

/-- R237: a packet that decodes to `(a, b)` unrotated decodes to `(b, a)` rotated. -/
def Obligations.RotationExchangesTheAxes : Prop :=
  ∀ (width height : Half) (touched : Bool) (xlo xhi ylo yhi : Byte) (c : Coord),
    packetCoord width height false touched xlo xhi ylo yhi = c →
    packetCoord width height true touched xlo xhi ylo yhi = ⟨c.y, c.x, c.touched⟩

/-- R240: READ is `NotReady` without a session, "no new data" when `S.current` equals what was last returned, and otherwise returns
it and remembers it; nothing else changes and there is no bus event. -/
def Obligations.ReadReportsChanges : Prop :=
  ∀ s : State, s.seq = .idle →
    (s.initialized = false → exec .read s =
      .next { s with res := .notReady, op := .none, trace := .ret .read (some .notReady) :: s.trace }) ∧
    (s.initialized = true → s.current = s.lastReported → exec .read s =
      .next { s with res := .noNew, op := .none, trace := .ret .read (some .noNew) :: s.trace }) ∧
    (s.initialized = true → s.current ≠ s.lastReported → exec .read s =
      .next { s with res := .coord s.current, lastReported := s.current, op := .none,
                     trace := .ret .read (some (.coord s.current)) :: s.trace })

/-- R241: after a READ that returned a coordinate, the next READ has no new data. -/
def Obligations.SecondReadHasNothingNew : Prop :=
  ∀ (s t : State) (c : Coord), s.seq = .idle → exec .read s = .next t → t.res = .coord c →
    t.lastReported = c ∧ ∃ u, exec .read t = .next u ∧ u.res = .noNew ∧ u.lastReported = c

/-! ## The whole machine -/

/-- R20, R21, R22, R23, R28, R31, R36 (I-a, I-b): which instruction can write which register, as whole operations. The parameters
are written by none (R30). That the row of REG_START writes the offset, its caller's store, is the model's choice (log 17). -/
def Obligations.EachRegisterHasItsWriters : Prop :=
  ∀ (s t : State) (i : Instr), s.seq = .idle → exec i s = .next t →
    (t.lastReported ≠ s.lastReported → i = .read) ∧
    (t.current ≠ s.current → i = .decode ∨ i.channel = some .pkt) ∧
    (t.pointIndex ≠ s.pointIndex → i = .calstart ∨ ∃ tmo, i = .calwait tmo) ∧
    (t.offset ≠ s.offset → i = .calstart ∨ i = .regStart ∨ ∃ w h r, i = .init w h r) ∧
    (t.initialized ≠ s.initialized ∨ t.width ≠ s.width ∨ t.height ≠ s.height ∨ t.rotated ≠ s.rotated →
      ∃ w h r, i = .init w h r) ∧
    (t.sink ≠ s.sink → i = .regdump) ∧ t.cfg = s.cfg ∧ t.inputs = s.inputs

/-- R30, R32: no step writes a parameter. -/
def Obligations.ParametersAreConstant : Prop :=
  ∀ s t : State, step s = .next t → t.cfg = s.cfg

/-- The invariant holds at reset. -/
def Obligations.InvariantHoldsAtReset : Prop := Inv State.reset

/-- R22, R25, R33, R36 (I-c, I-e), R210, R224, R302: every step, of a whole operation, of one event of the sequencer, of a frame
from the chip or of a reset, keeps the invariant. Where the invariant names a value of `S.step` it is in the model's numbering (log
36), and so is `S.k` in `WAIT` and at the four header bytes of a response (log 26). -/
def Obligations.EveryStepKeepsTheInvariant : Prop :=
  ∀ s t : State, Inv s → step s = .next t → Inv t

/-- R303: after any operation that reports failure, chip-select is released: an error of CMD, WAITRESP or SETREG, `false` of INIT or
CALSTART from a session, `None` of CALWAIT. An operation that fails without bus activity (CALSTART and SETREG without a session,
CALPOINT, READ) leaves it as it was: the model's reading, log 40.
R13, R36 (I-c), R147, R224: an operation of the host, or DECODE, that ends with chip-select asserted is a successful CALSTART, a
CALWAIT with more points, a CMD or WAITRESP that succeeded and was asked to hold, or one that did not touch a line that was asserted.
So at the end of a run (R13) from a released line chip-select is asserted during a calibration, and otherwise only where the host
itself asked to hold it: R147's exception, which R13's list leaves out (the model's reading, log 38). -/
def Obligations.ChipSelectIsReleasedUnlessHeld : Prop :=
  (∀ (s t : State) (i : Instr), s.seq = .idle → exec i s = .next t →
    (∀ opcode payload cap hold e, i = .cmd opcode payload cap hold → t.res = .err e → t.cs = false) ∧
    (∀ tmo hold e, i = .waitresp tmo hold → t.res = .err e → t.cs = false) ∧
    (∀ reg value e, i = .setreg reg value → t.res = .err e → t.cs = false) ∧
    (∀ w h r, i = .init w h r → t.res = .bool false → t.cs = false) ∧
    (i = .calstart → s.initialized = true → t.res = .bool false → t.cs = false) ∧
    (∀ tmo, i = .calwait tmo → t.res = .none → t.cs = false)) ∧
  (∀ (s t : State) (i : Instr), s.seq = .idle → (i.channel = some .host ∨ i = .decode) → exec i s = .next t → t.cs = true →
    (i = .calstart ∧ t.res = .bool true) ∨ (∃ tmo, i = .calwait tmo ∧ t.res = .more true) ∨
    (AsksToHold i ∧ ∃ p, t.res = .payload p) ∨
    (s.cs = true ∧ ∃ events, t.trace = events ++ s.trace ∧ .sel ∉ events ∧ .unsel ∉ events)) ∧
  (∀ (s t : State) (ops : List Instr), s.seq = .idle → s.cs = false → s.active = false → Run ops s t →
    t.seq = .idle ∧ (t.active = true → t.cs = true) ∧ (t.cs = true → t.active = true ∨ ∃ i ∈ ops, AsksToHold i))

/-- R290, R291, R292 with the model's values for what is unspecified (logs 5 and 25): an external reset in any state, also in the
middle of an operation. -/
def Obligations.ExternalResetAtAnyTime : Prop :=
  ∀ (s : State) (rest : List Stimulus), s.inputs = .reset :: rest →
    ∃ t, step s = .next t ∧ t.cs = false ∧ t.initialized = false ∧ t.pointIndex = 5 ∧ t.current = ⟨0, 0, false⟩ ∧
      t.lastReported = ⟨0, 0, false⟩ ∧ Idle t ∧ t.env = s.env ∧ t.cfg = s.cfg ∧ t.inputs = rest

/-- R34, R111, R115, R251, R252, R253: what the result registers show of the result: its tag; of an error the code, and the raw
status of `ChipStatus`; of a payload its length. And which results each operation of the host, and each wire command, can have.
That an empty `Ok` of CMD and WAITRESP has the tag `T_PAYLOAD`, with length 0, and SETREG's `Ok` the tag `T_OK` is the model's
reading (log 24). The fields no rule gives under a tag are free values, and nothing is said of them (log 22). -/
def Obligations.ResultRegistersShowTheResult : Prop :=
  (∀ s : State,
    (s.res = .err .noHeader → s.resErr = 1) ∧ (s.res = .err .invalidLength → s.resErr = 2) ∧
    (s.res = .err .invalidResponseOpcode → s.resErr = 3) ∧ (s.res = .err .responseTooLarge → s.resErr = 4) ∧
    (s.res = .err .timeout → s.resErr = 5) ∧ (∀ c, s.res = .err (.chipStatus c) → s.resErr = 6 ∧ s.resStatus = c) ∧
    (∀ e, s.res = .err e → s.res.tag = .err) ∧ (s.res = .ok → s.res.tag = .ok) ∧
    (∀ p, s.res = .payload p → s.res.tag = .payload ∧ s.resLen = BitVec.ofNat 8 p.length) ∧
    (s.res = .bool true → s.res.tag = .true) ∧ (s.res = .bool false → s.res.tag = .false) ∧
    (∀ c, s.res = .coord c → s.res.tag = .coord) ∧ (s.res = .noNew → s.res.tag = .noNew) ∧
    (s.res = .notReady → s.res.tag = .notReady) ∧ (∀ x y, s.res = .point x y → s.res.tag = .point) ∧
    (s.res = .none → s.res.tag = .none) ∧ (∀ b, s.res = .more b → s.res.tag = .more)) ∧
  (∀ (s t : State) (i : Instr), s.seq = .idle → exec i s = .next t →
    (∀ opcode payload cap hold, i = .cmd opcode payload cap hold →
      (∃ p, t.res = .payload p ∧ t.resLen.toNat = p.length ∧ p.length ≤ cap.toNat) ∨ t.res.tag = .err) ∧
    (∀ tmo hold, i = .waitresp tmo hold → (t.res = .payload [] ∧ t.resLen = 0) ∨ t.res.tag = .err) ∧
    (i.channel = some .wire → (∀ opcode payload, i ≠ .reqFrame opcode payload) →
      (∃ p, t.res = .payload p ∧ t.resLen.toNat = p.length) ∨ t.res.tag = .err) ∧
    (∀ reg value, i = .setreg reg value → t.res.tag = .ok ∨ t.res.tag = .err ∨ t.res.tag = .notReady) ∧
    (((∃ w h r, i = .init w h r) ∨ i = .calstart) → t.res.tag = .true ∨ t.res.tag = .false) ∧
    (i = .read → t.res.tag = .coord ∨ t.res.tag = .noNew ∨ t.res.tag = .notReady) ∧
    (i = .calpoint → t.res.tag = .point ∨ t.res.tag = .none) ∧
    (∀ tmo, i = .calwait tmo → t.res.tag = .more ∨ t.res.tag = .none))

/-! ## The sequencer against the whole operations (R26: the same behaviour) -/

/-- R26, R141, R150: CMD and WAITRESP run event by event end as the whole operation does, the transient registers apart. -/
def Obligations.SequencerRunsTheFramingOperations : Prop :=
  ∀ (s t : State) (i : Instr), Idle s →
    ((∃ opcode payload cap hold, i = .cmd opcode payload cap hold) ∨ (∃ tmo hold, i = .waitresp tmo hold)) →
    exec i s = .next t → ∃ b n, begin i s = .next b ∧ sameButTransient (seqRun n b) t

/-- R25, R26, R191, R195, R197: INIT, SETREG and REGDUMP run event by event end as the whole operation does. -/
def Obligations.SequencerRunsTheSessionOperations : Prop :=
  ∀ (s t : State) (i : Instr), Idle s →
    ((∃ w h r, i = .init w h r) ∨ (∃ reg value, i = .setreg reg value) ∨ i = .regdump) →
    exec i s = .next t → ∃ b n, begin i s = .next b ∧ sameButTransient (seqRun n b) t

/-- R25, R26, R212, R220, R221: CALSTART and CALWAIT run event by event end as the whole operation does. -/
def Obligations.SequencerRunsTheCalibration : Prop :=
  ∀ (s t : State) (i : Instr), Idle s → (i = .calstart ∨ ∃ tmo, i = .calwait tmo) →
    exec i s = .next t → ∃ b n, begin i s = .next b ∧ sameButTransient (seqRun n b) t

/-- R26, R232: DECODE run event by event ends as the whole operation does. Between two packets the sequencer is in `WAIT` with
`S.op` DECODE, the model's reading (log 27). -/
def Obligations.SequencerRunsDecode : Prop :=
  ∀ s t : State, Idle s → exec .decode s = .next t → ∃ b n, begin .decode s = .next b ∧ sameButTransient (seqRun n b) t
end

