-- ==== Sys2Proof/Laws/State.lean ====
section
/-! SUPPORT. One lemma per field per register write, so that no proof unfolds a record update. -/

namespace Sys2Proof.Machine

/-! ## `setCs` -/

@[simp] theorem State.setCs_cs (s : State) (b : Bool) : (s.setCs b).cs = b := rfl
@[simp] theorem State.setCs_initialized (s : State) (b : Bool) : (s.setCs b).initialized = s.initialized := rfl
@[simp] theorem State.setCs_current (s : State) (b : Bool) : (s.setCs b).current = s.current := rfl
@[simp] theorem State.setCs_lastReported (s : State) (b : Bool) : (s.setCs b).lastReported = s.lastReported := rfl
@[simp] theorem State.setCs_pointIndex (s : State) (b : Bool) : (s.setCs b).pointIndex = s.pointIndex := rfl
@[simp] theorem State.setCs_offset (s : State) (b : Bool) : (s.setCs b).offset = s.offset := rfl
@[simp] theorem State.setCs_width (s : State) (b : Bool) : (s.setCs b).width = s.width := rfl
@[simp] theorem State.setCs_height (s : State) (b : Bool) : (s.setCs b).height = s.height := rfl
@[simp] theorem State.setCs_rotated (s : State) (b : Bool) : (s.setCs b).rotated = s.rotated := rfl
@[simp] theorem State.setCs_seq (s : State) (b : Bool) : (s.setCs b).seq = s.seq := rfl
@[simp] theorem State.setCs_op (s : State) (b : Bool) : (s.setCs b).op = s.op := rfl
@[simp] theorem State.setCs_res (s : State) (b : Bool) : (s.setCs b).res = s.res := rfl
@[simp] theorem State.setCs_t (s : State) (b : Bool) : (s.setCs b).t = s.t := rfl
@[simp] theorem State.setCs_cfg (s : State) (b : Bool) : (s.setCs b).cfg = s.cfg := rfl
@[simp] theorem State.setCs_env (s : State) (b : Bool) : (s.setCs b).env = s.env := rfl
@[simp] theorem State.setCs_inputs (s : State) (b : Bool) : (s.setCs b).inputs = s.inputs := rfl
@[simp] theorem State.setCs_trace (s : State) (b : Bool) : (s.setCs b).trace = s.trace := rfl
@[simp] theorem State.setCs_sink (s : State) (b : Bool) : (s.setCs b).sink = s.sink := rfl

/-! ## `setInitialized` -/

@[simp] theorem State.setInitialized_cs (s : State) (b : Bool) : (s.setInitialized b).cs = s.cs := rfl
@[simp] theorem State.setInitialized_initialized (s : State) (b : Bool) : (s.setInitialized b).initialized = b := rfl
@[simp] theorem State.setInitialized_current (s : State) (b : Bool) : (s.setInitialized b).current = s.current := rfl
@[simp] theorem State.setInitialized_lastReported (s : State) (b : Bool) : (s.setInitialized b).lastReported = s.lastReported := rfl
@[simp] theorem State.setInitialized_pointIndex (s : State) (b : Bool) : (s.setInitialized b).pointIndex = s.pointIndex := rfl
@[simp] theorem State.setInitialized_offset (s : State) (b : Bool) : (s.setInitialized b).offset = s.offset := rfl
@[simp] theorem State.setInitialized_width (s : State) (b : Bool) : (s.setInitialized b).width = s.width := rfl
@[simp] theorem State.setInitialized_height (s : State) (b : Bool) : (s.setInitialized b).height = s.height := rfl
@[simp] theorem State.setInitialized_rotated (s : State) (b : Bool) : (s.setInitialized b).rotated = s.rotated := rfl
@[simp] theorem State.setInitialized_seq (s : State) (b : Bool) : (s.setInitialized b).seq = s.seq := rfl
@[simp] theorem State.setInitialized_op (s : State) (b : Bool) : (s.setInitialized b).op = s.op := rfl
@[simp] theorem State.setInitialized_res (s : State) (b : Bool) : (s.setInitialized b).res = s.res := rfl
@[simp] theorem State.setInitialized_t (s : State) (b : Bool) : (s.setInitialized b).t = s.t := rfl
@[simp] theorem State.setInitialized_cfg (s : State) (b : Bool) : (s.setInitialized b).cfg = s.cfg := rfl
@[simp] theorem State.setInitialized_env (s : State) (b : Bool) : (s.setInitialized b).env = s.env := rfl
@[simp] theorem State.setInitialized_inputs (s : State) (b : Bool) : (s.setInitialized b).inputs = s.inputs := rfl
@[simp] theorem State.setInitialized_trace (s : State) (b : Bool) : (s.setInitialized b).trace = s.trace := rfl
@[simp] theorem State.setInitialized_sink (s : State) (b : Bool) : (s.setInitialized b).sink = s.sink := rfl

/-! ## `setCurrent` -/

@[simp] theorem State.setCurrent_cs (s : State) (c : Coord) : (s.setCurrent c).cs = s.cs := rfl
@[simp] theorem State.setCurrent_initialized (s : State) (c : Coord) : (s.setCurrent c).initialized = s.initialized := rfl
@[simp] theorem State.setCurrent_current (s : State) (c : Coord) : (s.setCurrent c).current = c := rfl
@[simp] theorem State.setCurrent_lastReported (s : State) (c : Coord) : (s.setCurrent c).lastReported = s.lastReported := rfl
@[simp] theorem State.setCurrent_pointIndex (s : State) (c : Coord) : (s.setCurrent c).pointIndex = s.pointIndex := rfl
@[simp] theorem State.setCurrent_offset (s : State) (c : Coord) : (s.setCurrent c).offset = s.offset := rfl
@[simp] theorem State.setCurrent_width (s : State) (c : Coord) : (s.setCurrent c).width = s.width := rfl
@[simp] theorem State.setCurrent_height (s : State) (c : Coord) : (s.setCurrent c).height = s.height := rfl
@[simp] theorem State.setCurrent_rotated (s : State) (c : Coord) : (s.setCurrent c).rotated = s.rotated := rfl
@[simp] theorem State.setCurrent_seq (s : State) (c : Coord) : (s.setCurrent c).seq = s.seq := rfl
@[simp] theorem State.setCurrent_op (s : State) (c : Coord) : (s.setCurrent c).op = s.op := rfl
@[simp] theorem State.setCurrent_res (s : State) (c : Coord) : (s.setCurrent c).res = s.res := rfl
@[simp] theorem State.setCurrent_t (s : State) (c : Coord) : (s.setCurrent c).t = s.t := rfl
@[simp] theorem State.setCurrent_cfg (s : State) (c : Coord) : (s.setCurrent c).cfg = s.cfg := rfl
@[simp] theorem State.setCurrent_env (s : State) (c : Coord) : (s.setCurrent c).env = s.env := rfl
@[simp] theorem State.setCurrent_inputs (s : State) (c : Coord) : (s.setCurrent c).inputs = s.inputs := rfl
@[simp] theorem State.setCurrent_trace (s : State) (c : Coord) : (s.setCurrent c).trace = s.trace := rfl
@[simp] theorem State.setCurrent_sink (s : State) (c : Coord) : (s.setCurrent c).sink = s.sink := rfl

/-! ## `setLastReported` -/

@[simp] theorem State.setLastReported_cs (s : State) (c : Coord) : (s.setLastReported c).cs = s.cs := rfl
@[simp] theorem State.setLastReported_initialized (s : State) (c : Coord) : (s.setLastReported c).initialized = s.initialized := rfl
@[simp] theorem State.setLastReported_current (s : State) (c : Coord) : (s.setLastReported c).current = s.current := rfl
@[simp] theorem State.setLastReported_lastReported (s : State) (c : Coord) : (s.setLastReported c).lastReported = c := rfl
@[simp] theorem State.setLastReported_pointIndex (s : State) (c : Coord) : (s.setLastReported c).pointIndex = s.pointIndex := rfl
@[simp] theorem State.setLastReported_offset (s : State) (c : Coord) : (s.setLastReported c).offset = s.offset := rfl
@[simp] theorem State.setLastReported_width (s : State) (c : Coord) : (s.setLastReported c).width = s.width := rfl
@[simp] theorem State.setLastReported_height (s : State) (c : Coord) : (s.setLastReported c).height = s.height := rfl
@[simp] theorem State.setLastReported_rotated (s : State) (c : Coord) : (s.setLastReported c).rotated = s.rotated := rfl
@[simp] theorem State.setLastReported_seq (s : State) (c : Coord) : (s.setLastReported c).seq = s.seq := rfl
@[simp] theorem State.setLastReported_op (s : State) (c : Coord) : (s.setLastReported c).op = s.op := rfl
@[simp] theorem State.setLastReported_res (s : State) (c : Coord) : (s.setLastReported c).res = s.res := rfl
@[simp] theorem State.setLastReported_t (s : State) (c : Coord) : (s.setLastReported c).t = s.t := rfl
@[simp] theorem State.setLastReported_cfg (s : State) (c : Coord) : (s.setLastReported c).cfg = s.cfg := rfl
@[simp] theorem State.setLastReported_env (s : State) (c : Coord) : (s.setLastReported c).env = s.env := rfl
@[simp] theorem State.setLastReported_inputs (s : State) (c : Coord) : (s.setLastReported c).inputs = s.inputs := rfl
@[simp] theorem State.setLastReported_trace (s : State) (c : Coord) : (s.setLastReported c).trace = s.trace := rfl
@[simp] theorem State.setLastReported_sink (s : State) (c : Coord) : (s.setLastReported c).sink = s.sink := rfl

/-! ## `setPointIndex` -/

@[simp] theorem State.setPointIndex_cs (s : State) (i : BitVec 3) : (s.setPointIndex i).cs = s.cs := rfl
@[simp] theorem State.setPointIndex_initialized (s : State) (i : BitVec 3) : (s.setPointIndex i).initialized = s.initialized := rfl
@[simp] theorem State.setPointIndex_current (s : State) (i : BitVec 3) : (s.setPointIndex i).current = s.current := rfl
@[simp] theorem State.setPointIndex_lastReported (s : State) (i : BitVec 3) : (s.setPointIndex i).lastReported = s.lastReported := rfl
@[simp] theorem State.setPointIndex_pointIndex (s : State) (i : BitVec 3) : (s.setPointIndex i).pointIndex = i := rfl
@[simp] theorem State.setPointIndex_offset (s : State) (i : BitVec 3) : (s.setPointIndex i).offset = s.offset := rfl
@[simp] theorem State.setPointIndex_width (s : State) (i : BitVec 3) : (s.setPointIndex i).width = s.width := rfl
@[simp] theorem State.setPointIndex_height (s : State) (i : BitVec 3) : (s.setPointIndex i).height = s.height := rfl
@[simp] theorem State.setPointIndex_rotated (s : State) (i : BitVec 3) : (s.setPointIndex i).rotated = s.rotated := rfl
@[simp] theorem State.setPointIndex_seq (s : State) (i : BitVec 3) : (s.setPointIndex i).seq = s.seq := rfl
@[simp] theorem State.setPointIndex_op (s : State) (i : BitVec 3) : (s.setPointIndex i).op = s.op := rfl
@[simp] theorem State.setPointIndex_res (s : State) (i : BitVec 3) : (s.setPointIndex i).res = s.res := rfl
@[simp] theorem State.setPointIndex_t (s : State) (i : BitVec 3) : (s.setPointIndex i).t = s.t := rfl
@[simp] theorem State.setPointIndex_cfg (s : State) (i : BitVec 3) : (s.setPointIndex i).cfg = s.cfg := rfl
@[simp] theorem State.setPointIndex_env (s : State) (i : BitVec 3) : (s.setPointIndex i).env = s.env := rfl
@[simp] theorem State.setPointIndex_inputs (s : State) (i : BitVec 3) : (s.setPointIndex i).inputs = s.inputs := rfl
@[simp] theorem State.setPointIndex_trace (s : State) (i : BitVec 3) : (s.setPointIndex i).trace = s.trace := rfl
@[simp] theorem State.setPointIndex_sink (s : State) (i : BitVec 3) : (s.setPointIndex i).sink = s.sink := rfl

/-! ## `setOffset` -/

@[simp] theorem State.setOffset_cs (s : State) (b : Byte) : (s.setOffset b).cs = s.cs := rfl
@[simp] theorem State.setOffset_initialized (s : State) (b : Byte) : (s.setOffset b).initialized = s.initialized := rfl
@[simp] theorem State.setOffset_current (s : State) (b : Byte) : (s.setOffset b).current = s.current := rfl
@[simp] theorem State.setOffset_lastReported (s : State) (b : Byte) : (s.setOffset b).lastReported = s.lastReported := rfl
@[simp] theorem State.setOffset_pointIndex (s : State) (b : Byte) : (s.setOffset b).pointIndex = s.pointIndex := rfl
@[simp] theorem State.setOffset_offset (s : State) (b : Byte) : (s.setOffset b).offset = b := rfl
@[simp] theorem State.setOffset_width (s : State) (b : Byte) : (s.setOffset b).width = s.width := rfl
@[simp] theorem State.setOffset_height (s : State) (b : Byte) : (s.setOffset b).height = s.height := rfl
@[simp] theorem State.setOffset_rotated (s : State) (b : Byte) : (s.setOffset b).rotated = s.rotated := rfl
@[simp] theorem State.setOffset_seq (s : State) (b : Byte) : (s.setOffset b).seq = s.seq := rfl
@[simp] theorem State.setOffset_op (s : State) (b : Byte) : (s.setOffset b).op = s.op := rfl
@[simp] theorem State.setOffset_res (s : State) (b : Byte) : (s.setOffset b).res = s.res := rfl
@[simp] theorem State.setOffset_t (s : State) (b : Byte) : (s.setOffset b).t = s.t := rfl
@[simp] theorem State.setOffset_cfg (s : State) (b : Byte) : (s.setOffset b).cfg = s.cfg := rfl
@[simp] theorem State.setOffset_env (s : State) (b : Byte) : (s.setOffset b).env = s.env := rfl
@[simp] theorem State.setOffset_inputs (s : State) (b : Byte) : (s.setOffset b).inputs = s.inputs := rfl
@[simp] theorem State.setOffset_trace (s : State) (b : Byte) : (s.setOffset b).trace = s.trace := rfl
@[simp] theorem State.setOffset_sink (s : State) (b : Byte) : (s.setOffset b).sink = s.sink := rfl

/-! ## `setDisplay` -/

@[simp] theorem State.setDisplay_cs (s : State) (w h : Half) (r : Bool) : (s.setDisplay w h r).cs = s.cs := rfl
@[simp] theorem State.setDisplay_initialized (s : State) (w h : Half) (r : Bool) : (s.setDisplay w h r).initialized = s.initialized := rfl
@[simp] theorem State.setDisplay_current (s : State) (w h : Half) (r : Bool) : (s.setDisplay w h r).current = s.current := rfl
@[simp] theorem State.setDisplay_lastReported (s : State) (w h : Half) (r : Bool) : (s.setDisplay w h r).lastReported = s.lastReported := rfl
@[simp] theorem State.setDisplay_pointIndex (s : State) (w h : Half) (r : Bool) : (s.setDisplay w h r).pointIndex = s.pointIndex := rfl
@[simp] theorem State.setDisplay_offset (s : State) (w h : Half) (r : Bool) : (s.setDisplay w h r).offset = s.offset := rfl
@[simp] theorem State.setDisplay_width (s : State) (w h : Half) (r : Bool) : (s.setDisplay w h r).width = w := rfl
@[simp] theorem State.setDisplay_height (s : State) (w h : Half) (r : Bool) : (s.setDisplay w h r).height = h := rfl
@[simp] theorem State.setDisplay_rotated (s : State) (w h : Half) (r : Bool) : (s.setDisplay w h r).rotated = r := rfl
@[simp] theorem State.setDisplay_seq (s : State) (w h : Half) (r : Bool) : (s.setDisplay w h r).seq = s.seq := rfl
@[simp] theorem State.setDisplay_op (s : State) (w h : Half) (r : Bool) : (s.setDisplay w h r).op = s.op := rfl
@[simp] theorem State.setDisplay_res (s : State) (w h : Half) (r : Bool) : (s.setDisplay w h r).res = s.res := rfl
@[simp] theorem State.setDisplay_t (s : State) (w h : Half) (r : Bool) : (s.setDisplay w h r).t = s.t := rfl
@[simp] theorem State.setDisplay_cfg (s : State) (w h : Half) (r : Bool) : (s.setDisplay w h r).cfg = s.cfg := rfl
@[simp] theorem State.setDisplay_env (s : State) (w h : Half) (r : Bool) : (s.setDisplay w h r).env = s.env := rfl
@[simp] theorem State.setDisplay_inputs (s : State) (w h : Half) (r : Bool) : (s.setDisplay w h r).inputs = s.inputs := rfl
@[simp] theorem State.setDisplay_trace (s : State) (w h : Half) (r : Bool) : (s.setDisplay w h r).trace = s.trace := rfl
@[simp] theorem State.setDisplay_sink (s : State) (w h : Half) (r : Bool) : (s.setDisplay w h r).sink = s.sink := rfl

/-! ## `setSeq` -/

@[simp] theorem State.setSeq_cs (s : State) (q : Seq) : (s.setSeq q).cs = s.cs := rfl
@[simp] theorem State.setSeq_initialized (s : State) (q : Seq) : (s.setSeq q).initialized = s.initialized := rfl
@[simp] theorem State.setSeq_current (s : State) (q : Seq) : (s.setSeq q).current = s.current := rfl
@[simp] theorem State.setSeq_lastReported (s : State) (q : Seq) : (s.setSeq q).lastReported = s.lastReported := rfl
@[simp] theorem State.setSeq_pointIndex (s : State) (q : Seq) : (s.setSeq q).pointIndex = s.pointIndex := rfl
@[simp] theorem State.setSeq_offset (s : State) (q : Seq) : (s.setSeq q).offset = s.offset := rfl
@[simp] theorem State.setSeq_width (s : State) (q : Seq) : (s.setSeq q).width = s.width := rfl
@[simp] theorem State.setSeq_height (s : State) (q : Seq) : (s.setSeq q).height = s.height := rfl
@[simp] theorem State.setSeq_rotated (s : State) (q : Seq) : (s.setSeq q).rotated = s.rotated := rfl
@[simp] theorem State.setSeq_seq (s : State) (q : Seq) : (s.setSeq q).seq = q := rfl
@[simp] theorem State.setSeq_op (s : State) (q : Seq) : (s.setSeq q).op = s.op := rfl
@[simp] theorem State.setSeq_res (s : State) (q : Seq) : (s.setSeq q).res = s.res := rfl
@[simp] theorem State.setSeq_t (s : State) (q : Seq) : (s.setSeq q).t = s.t := rfl
@[simp] theorem State.setSeq_cfg (s : State) (q : Seq) : (s.setSeq q).cfg = s.cfg := rfl
@[simp] theorem State.setSeq_env (s : State) (q : Seq) : (s.setSeq q).env = s.env := rfl
@[simp] theorem State.setSeq_inputs (s : State) (q : Seq) : (s.setSeq q).inputs = s.inputs := rfl
@[simp] theorem State.setSeq_trace (s : State) (q : Seq) : (s.setSeq q).trace = s.trace := rfl
@[simp] theorem State.setSeq_sink (s : State) (q : Seq) : (s.setSeq q).sink = s.sink := rfl

/-! ## `goTo` -/

@[simp] theorem State.goTo_cs (s : State) (q : Seq) : (s.goTo q).cs = s.cs := rfl
@[simp] theorem State.goTo_initialized (s : State) (q : Seq) : (s.goTo q).initialized = s.initialized := rfl
@[simp] theorem State.goTo_current (s : State) (q : Seq) : (s.goTo q).current = s.current := rfl
@[simp] theorem State.goTo_lastReported (s : State) (q : Seq) : (s.goTo q).lastReported = s.lastReported := rfl
@[simp] theorem State.goTo_pointIndex (s : State) (q : Seq) : (s.goTo q).pointIndex = s.pointIndex := rfl
@[simp] theorem State.goTo_offset (s : State) (q : Seq) : (s.goTo q).offset = s.offset := rfl
@[simp] theorem State.goTo_width (s : State) (q : Seq) : (s.goTo q).width = s.width := rfl
@[simp] theorem State.goTo_height (s : State) (q : Seq) : (s.goTo q).height = s.height := rfl
@[simp] theorem State.goTo_rotated (s : State) (q : Seq) : (s.goTo q).rotated = s.rotated := rfl
@[simp] theorem State.goTo_op (s : State) (q : Seq) : (s.goTo q).op = s.op := rfl
@[simp] theorem State.goTo_res (s : State) (q : Seq) : (s.goTo q).res = s.res := rfl
@[simp] theorem State.goTo_cfg (s : State) (q : Seq) : (s.goTo q).cfg = s.cfg := rfl
@[simp] theorem State.goTo_env (s : State) (q : Seq) : (s.goTo q).env = s.env := rfl
@[simp] theorem State.goTo_inputs (s : State) (q : Seq) : (s.goTo q).inputs = s.inputs := rfl
@[simp] theorem State.goTo_trace (s : State) (q : Seq) : (s.goTo q).trace = s.trace := rfl
@[simp] theorem State.goTo_sink (s : State) (q : Seq) : (s.goTo q).sink = s.sink := rfl
@[simp] theorem State.goTo_seq (s : State) (q : Seq) : (s.goTo q).seq = q := rfl
@[simp] theorem State.goTo_t (s : State) (q : Seq) :
    (s.goTo q).t = { s.t with k := (q.index.map (BitVec.ofNat 8)).getD s.t.k } := rfl

/-- Whatever it was, `S.k` is the index of the byte in the state moved to (R33). -/
theorem State.goTo_k (s : State) {q : Seq} {k : Nat} (h : q.index = some k) : (s.goTo q).t.k = BitVec.ofNat 8 k := by
  simp [h]

/-- Only `S.seq` and `S.k` change. -/
theorem State.goTo_eq (s : State) (q : Seq) : s.goTo q = { s with seq := q, t := { s.t with k := (s.goTo q).t.k } } := rfl

/-! ## `setOp` -/

@[simp] theorem State.setOp_cs (s : State) (o : OpName) : (s.setOp o).cs = s.cs := rfl
@[simp] theorem State.setOp_initialized (s : State) (o : OpName) : (s.setOp o).initialized = s.initialized := rfl
@[simp] theorem State.setOp_current (s : State) (o : OpName) : (s.setOp o).current = s.current := rfl
@[simp] theorem State.setOp_lastReported (s : State) (o : OpName) : (s.setOp o).lastReported = s.lastReported := rfl
@[simp] theorem State.setOp_pointIndex (s : State) (o : OpName) : (s.setOp o).pointIndex = s.pointIndex := rfl
@[simp] theorem State.setOp_offset (s : State) (o : OpName) : (s.setOp o).offset = s.offset := rfl
@[simp] theorem State.setOp_width (s : State) (o : OpName) : (s.setOp o).width = s.width := rfl
@[simp] theorem State.setOp_height (s : State) (o : OpName) : (s.setOp o).height = s.height := rfl
@[simp] theorem State.setOp_rotated (s : State) (o : OpName) : (s.setOp o).rotated = s.rotated := rfl
@[simp] theorem State.setOp_seq (s : State) (o : OpName) : (s.setOp o).seq = s.seq := rfl
@[simp] theorem State.setOp_op (s : State) (o : OpName) : (s.setOp o).op = o := rfl
@[simp] theorem State.setOp_res (s : State) (o : OpName) : (s.setOp o).res = s.res := rfl
@[simp] theorem State.setOp_t (s : State) (o : OpName) : (s.setOp o).t = s.t := rfl
@[simp] theorem State.setOp_cfg (s : State) (o : OpName) : (s.setOp o).cfg = s.cfg := rfl
@[simp] theorem State.setOp_env (s : State) (o : OpName) : (s.setOp o).env = s.env := rfl
@[simp] theorem State.setOp_inputs (s : State) (o : OpName) : (s.setOp o).inputs = s.inputs := rfl
@[simp] theorem State.setOp_trace (s : State) (o : OpName) : (s.setOp o).trace = s.trace := rfl
@[simp] theorem State.setOp_sink (s : State) (o : OpName) : (s.setOp o).sink = s.sink := rfl

/-! ## `setRes` -/

@[simp] theorem State.setRes_cs (s : State) (r : Result) : (s.setRes r).cs = s.cs := rfl
@[simp] theorem State.setRes_initialized (s : State) (r : Result) : (s.setRes r).initialized = s.initialized := rfl
@[simp] theorem State.setRes_current (s : State) (r : Result) : (s.setRes r).current = s.current := rfl
@[simp] theorem State.setRes_lastReported (s : State) (r : Result) : (s.setRes r).lastReported = s.lastReported := rfl
@[simp] theorem State.setRes_pointIndex (s : State) (r : Result) : (s.setRes r).pointIndex = s.pointIndex := rfl
@[simp] theorem State.setRes_offset (s : State) (r : Result) : (s.setRes r).offset = s.offset := rfl
@[simp] theorem State.setRes_width (s : State) (r : Result) : (s.setRes r).width = s.width := rfl
@[simp] theorem State.setRes_height (s : State) (r : Result) : (s.setRes r).height = s.height := rfl
@[simp] theorem State.setRes_rotated (s : State) (r : Result) : (s.setRes r).rotated = s.rotated := rfl
@[simp] theorem State.setRes_seq (s : State) (r : Result) : (s.setRes r).seq = s.seq := rfl
@[simp] theorem State.setRes_op (s : State) (r : Result) : (s.setRes r).op = s.op := rfl
@[simp] theorem State.setRes_res (s : State) (r : Result) : (s.setRes r).res = r := rfl
@[simp] theorem State.setRes_t (s : State) (r : Result) : (s.setRes r).t = s.t := rfl
@[simp] theorem State.setRes_cfg (s : State) (r : Result) : (s.setRes r).cfg = s.cfg := rfl
@[simp] theorem State.setRes_env (s : State) (r : Result) : (s.setRes r).env = s.env := rfl
@[simp] theorem State.setRes_inputs (s : State) (r : Result) : (s.setRes r).inputs = s.inputs := rfl
@[simp] theorem State.setRes_trace (s : State) (r : Result) : (s.setRes r).trace = s.trace := rfl
@[simp] theorem State.setRes_sink (s : State) (r : Result) : (s.setRes r).sink = s.sink := rfl

/-! ## `setT` -/

@[simp] theorem State.setT_cs (s : State) (x : Transient) : (s.setT x).cs = s.cs := rfl
@[simp] theorem State.setT_initialized (s : State) (x : Transient) : (s.setT x).initialized = s.initialized := rfl
@[simp] theorem State.setT_current (s : State) (x : Transient) : (s.setT x).current = s.current := rfl
@[simp] theorem State.setT_lastReported (s : State) (x : Transient) : (s.setT x).lastReported = s.lastReported := rfl
@[simp] theorem State.setT_pointIndex (s : State) (x : Transient) : (s.setT x).pointIndex = s.pointIndex := rfl
@[simp] theorem State.setT_offset (s : State) (x : Transient) : (s.setT x).offset = s.offset := rfl
@[simp] theorem State.setT_width (s : State) (x : Transient) : (s.setT x).width = s.width := rfl
@[simp] theorem State.setT_height (s : State) (x : Transient) : (s.setT x).height = s.height := rfl
@[simp] theorem State.setT_rotated (s : State) (x : Transient) : (s.setT x).rotated = s.rotated := rfl
@[simp] theorem State.setT_seq (s : State) (x : Transient) : (s.setT x).seq = s.seq := rfl
@[simp] theorem State.setT_op (s : State) (x : Transient) : (s.setT x).op = s.op := rfl
@[simp] theorem State.setT_res (s : State) (x : Transient) : (s.setT x).res = s.res := rfl
@[simp] theorem State.setT_t (s : State) (x : Transient) : (s.setT x).t = x := rfl
@[simp] theorem State.setT_cfg (s : State) (x : Transient) : (s.setT x).cfg = s.cfg := rfl
@[simp] theorem State.setT_env (s : State) (x : Transient) : (s.setT x).env = s.env := rfl
@[simp] theorem State.setT_inputs (s : State) (x : Transient) : (s.setT x).inputs = s.inputs := rfl
@[simp] theorem State.setT_trace (s : State) (x : Transient) : (s.setT x).trace = s.trace := rfl
@[simp] theorem State.setT_sink (s : State) (x : Transient) : (s.setT x).sink = s.sink := rfl

/-! ## `setEnv` -/

@[simp] theorem State.setEnv_cs (s : State) (e : Env) : (s.setEnv e).cs = s.cs := rfl
@[simp] theorem State.setEnv_initialized (s : State) (e : Env) : (s.setEnv e).initialized = s.initialized := rfl
@[simp] theorem State.setEnv_current (s : State) (e : Env) : (s.setEnv e).current = s.current := rfl
@[simp] theorem State.setEnv_lastReported (s : State) (e : Env) : (s.setEnv e).lastReported = s.lastReported := rfl
@[simp] theorem State.setEnv_pointIndex (s : State) (e : Env) : (s.setEnv e).pointIndex = s.pointIndex := rfl
@[simp] theorem State.setEnv_offset (s : State) (e : Env) : (s.setEnv e).offset = s.offset := rfl
@[simp] theorem State.setEnv_width (s : State) (e : Env) : (s.setEnv e).width = s.width := rfl
@[simp] theorem State.setEnv_height (s : State) (e : Env) : (s.setEnv e).height = s.height := rfl
@[simp] theorem State.setEnv_rotated (s : State) (e : Env) : (s.setEnv e).rotated = s.rotated := rfl
@[simp] theorem State.setEnv_seq (s : State) (e : Env) : (s.setEnv e).seq = s.seq := rfl
@[simp] theorem State.setEnv_op (s : State) (e : Env) : (s.setEnv e).op = s.op := rfl
@[simp] theorem State.setEnv_res (s : State) (e : Env) : (s.setEnv e).res = s.res := rfl
@[simp] theorem State.setEnv_t (s : State) (e : Env) : (s.setEnv e).t = s.t := rfl
@[simp] theorem State.setEnv_cfg (s : State) (e : Env) : (s.setEnv e).cfg = s.cfg := rfl
@[simp] theorem State.setEnv_env (s : State) (e : Env) : (s.setEnv e).env = e := rfl
@[simp] theorem State.setEnv_inputs (s : State) (e : Env) : (s.setEnv e).inputs = s.inputs := rfl
@[simp] theorem State.setEnv_trace (s : State) (e : Env) : (s.setEnv e).trace = s.trace := rfl
@[simp] theorem State.setEnv_sink (s : State) (e : Env) : (s.setEnv e).sink = s.sink := rfl

/-! ## `setInputs` -/

@[simp] theorem State.setInputs_cs (s : State) (l : List Stimulus) : (s.setInputs l).cs = s.cs := rfl
@[simp] theorem State.setInputs_initialized (s : State) (l : List Stimulus) : (s.setInputs l).initialized = s.initialized := rfl
@[simp] theorem State.setInputs_current (s : State) (l : List Stimulus) : (s.setInputs l).current = s.current := rfl
@[simp] theorem State.setInputs_lastReported (s : State) (l : List Stimulus) : (s.setInputs l).lastReported = s.lastReported := rfl
@[simp] theorem State.setInputs_pointIndex (s : State) (l : List Stimulus) : (s.setInputs l).pointIndex = s.pointIndex := rfl
@[simp] theorem State.setInputs_offset (s : State) (l : List Stimulus) : (s.setInputs l).offset = s.offset := rfl
@[simp] theorem State.setInputs_width (s : State) (l : List Stimulus) : (s.setInputs l).width = s.width := rfl
@[simp] theorem State.setInputs_height (s : State) (l : List Stimulus) : (s.setInputs l).height = s.height := rfl
@[simp] theorem State.setInputs_rotated (s : State) (l : List Stimulus) : (s.setInputs l).rotated = s.rotated := rfl
@[simp] theorem State.setInputs_seq (s : State) (l : List Stimulus) : (s.setInputs l).seq = s.seq := rfl
@[simp] theorem State.setInputs_op (s : State) (l : List Stimulus) : (s.setInputs l).op = s.op := rfl
@[simp] theorem State.setInputs_res (s : State) (l : List Stimulus) : (s.setInputs l).res = s.res := rfl
@[simp] theorem State.setInputs_t (s : State) (l : List Stimulus) : (s.setInputs l).t = s.t := rfl
@[simp] theorem State.setInputs_cfg (s : State) (l : List Stimulus) : (s.setInputs l).cfg = s.cfg := rfl
@[simp] theorem State.setInputs_env (s : State) (l : List Stimulus) : (s.setInputs l).env = s.env := rfl
@[simp] theorem State.setInputs_inputs (s : State) (l : List Stimulus) : (s.setInputs l).inputs = l := rfl
@[simp] theorem State.setInputs_trace (s : State) (l : List Stimulus) : (s.setInputs l).trace = s.trace := rfl
@[simp] theorem State.setInputs_sink (s : State) (l : List Stimulus) : (s.setInputs l).sink = s.sink := rfl

/-! ## `emit` -/

@[simp] theorem State.emit_cs (s : State) (e : Event) : (s.emit e).cs = s.cs := rfl
@[simp] theorem State.emit_initialized (s : State) (e : Event) : (s.emit e).initialized = s.initialized := rfl
@[simp] theorem State.emit_current (s : State) (e : Event) : (s.emit e).current = s.current := rfl
@[simp] theorem State.emit_lastReported (s : State) (e : Event) : (s.emit e).lastReported = s.lastReported := rfl
@[simp] theorem State.emit_pointIndex (s : State) (e : Event) : (s.emit e).pointIndex = s.pointIndex := rfl
@[simp] theorem State.emit_offset (s : State) (e : Event) : (s.emit e).offset = s.offset := rfl
@[simp] theorem State.emit_width (s : State) (e : Event) : (s.emit e).width = s.width := rfl
@[simp] theorem State.emit_height (s : State) (e : Event) : (s.emit e).height = s.height := rfl
@[simp] theorem State.emit_rotated (s : State) (e : Event) : (s.emit e).rotated = s.rotated := rfl
@[simp] theorem State.emit_seq (s : State) (e : Event) : (s.emit e).seq = s.seq := rfl
@[simp] theorem State.emit_op (s : State) (e : Event) : (s.emit e).op = s.op := rfl
@[simp] theorem State.emit_res (s : State) (e : Event) : (s.emit e).res = s.res := rfl
@[simp] theorem State.emit_t (s : State) (e : Event) : (s.emit e).t = s.t := rfl
@[simp] theorem State.emit_cfg (s : State) (e : Event) : (s.emit e).cfg = s.cfg := rfl
@[simp] theorem State.emit_env (s : State) (e : Event) : (s.emit e).env = s.env := rfl
@[simp] theorem State.emit_inputs (s : State) (e : Event) : (s.emit e).inputs = s.inputs := rfl
@[simp] theorem State.emit_trace (s : State) (e : Event) : (s.emit e).trace = e :: s.trace := rfl
@[simp] theorem State.emit_sink (s : State) (e : Event) : (s.emit e).sink = s.sink := rfl

/-! ## `sinkPut` -/

@[simp] theorem State.sinkPut_cs (s : State) (v : SinkItem) : (s.sinkPut v).cs = s.cs := rfl
@[simp] theorem State.sinkPut_initialized (s : State) (v : SinkItem) : (s.sinkPut v).initialized = s.initialized := rfl
@[simp] theorem State.sinkPut_current (s : State) (v : SinkItem) : (s.sinkPut v).current = s.current := rfl
@[simp] theorem State.sinkPut_lastReported (s : State) (v : SinkItem) : (s.sinkPut v).lastReported = s.lastReported := rfl
@[simp] theorem State.sinkPut_pointIndex (s : State) (v : SinkItem) : (s.sinkPut v).pointIndex = s.pointIndex := rfl
@[simp] theorem State.sinkPut_offset (s : State) (v : SinkItem) : (s.sinkPut v).offset = s.offset := rfl
@[simp] theorem State.sinkPut_width (s : State) (v : SinkItem) : (s.sinkPut v).width = s.width := rfl
@[simp] theorem State.sinkPut_height (s : State) (v : SinkItem) : (s.sinkPut v).height = s.height := rfl
@[simp] theorem State.sinkPut_rotated (s : State) (v : SinkItem) : (s.sinkPut v).rotated = s.rotated := rfl
@[simp] theorem State.sinkPut_seq (s : State) (v : SinkItem) : (s.sinkPut v).seq = s.seq := rfl
@[simp] theorem State.sinkPut_op (s : State) (v : SinkItem) : (s.sinkPut v).op = s.op := rfl
@[simp] theorem State.sinkPut_res (s : State) (v : SinkItem) : (s.sinkPut v).res = s.res := rfl
@[simp] theorem State.sinkPut_t (s : State) (v : SinkItem) : (s.sinkPut v).t = s.t := rfl
@[simp] theorem State.sinkPut_cfg (s : State) (v : SinkItem) : (s.sinkPut v).cfg = s.cfg := rfl
@[simp] theorem State.sinkPut_env (s : State) (v : SinkItem) : (s.sinkPut v).env = s.env := rfl
@[simp] theorem State.sinkPut_inputs (s : State) (v : SinkItem) : (s.sinkPut v).inputs = s.inputs := rfl
@[simp] theorem State.sinkPut_trace (s : State) (v : SinkItem) : (s.sinkPut v).trace = s.trace := rfl
@[simp] theorem State.sinkPut_sink (s : State) (v : SinkItem) : (s.sinkPut v).sink = v :: s.sink := rfl

end Sys2Proof.Machine
end

