-- ==== Sys2Proof/Laws/Ops.lean ====
section
/-! SUPPORT. What each shared operation can do, said once: which fields it can change (`LinkOnly`, `ParseOnly`, `BusOnly`), what
it does with chip-select and with the result, and what it does on a chip whose answers are scripted. Proofs cite these. -/

namespace Sys2Proof.Machine

/-! ## What changes: three nested relations -/

/-- At most the oracle's answers and the trace differ. -/
def LinkOnly (s t : State) : Prop := t = { s with env := t.env, trace := t.trace }

/-- At most the oracle's answers, the trace and the transient registers differ. -/
def ParseOnly (s t : State) : Prop := t = { s with env := t.env, trace := t.trace, t := t.t }

/-- At most the oracle's answers, the trace, the transient registers, chip-select and the result differ. -/
def BusOnly (s t : State) : Prop := t = { s with env := t.env, trace := t.trace, t := t.t, cs := t.cs, res := t.res }

theorem LinkOnly.refl (s : State) : LinkOnly s s := rfl
theorem ParseOnly.refl (s : State) : ParseOnly s s := rfl
theorem BusOnly.refl (s : State) : BusOnly s s := rfl

theorem LinkOnly.trans {a b c : State} (h1 : LinkOnly a b) (h2 : LinkOnly b c) : LinkOnly a c := by
  cases a; cases b; cases c; simp_all [LinkOnly]

theorem ParseOnly.trans {a b c : State} (h1 : ParseOnly a b) (h2 : ParseOnly b c) : ParseOnly a c := by
  cases a; cases b; cases c; simp_all [ParseOnly]

theorem BusOnly.trans {a b c : State} (h1 : BusOnly a b) (h2 : BusOnly b c) : BusOnly a c := by
  cases a; cases b; cases c; simp_all [BusOnly]

theorem LinkOnly.parse {a b : State} (h : LinkOnly a b) : ParseOnly a b := by
  cases a; cases b; simp_all [LinkOnly, ParseOnly]

theorem ParseOnly.bus {a b : State} (h : ParseOnly a b) : BusOnly a b := by
  cases a; cases b; simp_all [ParseOnly, BusOnly]

theorem LinkOnly.cs {a b : State} (h : LinkOnly a b) : b.cs = a.cs := by rw [h]
theorem ParseOnly.cs {a b : State} (h : ParseOnly a b) : b.cs = a.cs := by rw [h]
theorem LinkOnly.t {a b : State} (h : LinkOnly a b) : b.t = a.t := by rw [h]
theorem LinkOnly.cfg {a b : State} (h : LinkOnly a b) : b.cfg = a.cfg := by rw [h]
theorem ParseOnly.cfg {a b : State} (h : ParseOnly a b) : b.cfg = a.cfg := by rw [h]
theorem BusOnly.cfg {a b : State} (h : BusOnly a b) : b.cfg = a.cfg := by rw [h]
theorem BusOnly.seq {a b : State} (h : BusOnly a b) : b.seq = a.seq := by rw [h]
theorem BusOnly.op {a b : State} (h : BusOnly a b) : b.op = a.op := by rw [h]
theorem BusOnly.pointIndex {a b : State} (h : BusOnly a b) : b.pointIndex = a.pointIndex := by rw [h]
theorem BusOnly.initialized {a b : State} (h : BusOnly a b) : b.initialized = a.initialized := by rw [h]
theorem BusOnly.offset {a b : State} (h : BusOnly a b) : b.offset = a.offset := by rw [h]

theorem SameRegs.refl (s : State) : SameRegs s s := ⟨rfl, rfl, rfl, rfl, rfl, rfl, rfl, rfl, rfl, rfl, rfl⟩

theorem SameRegs.trans {a b c : State} (h1 : SameRegs a b) (h2 : SameRegs b c) : SameRegs a c :=
  ⟨h2.1.trans h1.1, h2.2.trans h1.2, h2.3.trans h1.3, h2.4.trans h1.4, h2.5.trans h1.5, h2.6.trans h1.6, h2.7.trans h1.7,
   h2.8.trans h1.8, h2.9.trans h1.9, h2.10.trans h1.10, h2.11.trans h1.11⟩

/-- A bus operation leaves the registers alone. -/
theorem BusOnly.sameRegs {a b : State} (h : BusOnly a b) : SameRegs a b := by
  rw [h]; exact ⟨rfl, rfl, rfl, rfl, rfl, rfl, rfl, rfl, rfl, rfl, rfl⟩

/-! ## The transport and the agents -/

@[simp] theorem select_cs (s : State) : (select s).cs = true := rfl
@[simp] theorem select_trace (s : State) : (select s).trace = .sel :: s.trace := rfl
@[simp] theorem select_env (s : State) : (select s).env = s.env := rfl
@[simp] theorem unselect_cs (s : State) : (unselect s).cs = false := rfl
@[simp] theorem unselect_trace (s : State) : (unselect s).trace = .unsel :: s.trace := rfl
@[simp] theorem unselect_env (s : State) : (unselect s).env = s.env := rfl

theorem select_bus (s : State) : BusOnly s (select s) := rfl
theorem unselect_bus (s : State) : BusOnly s (unselect s) := rfl

theorem freeByte_link (s : State) : LinkOnly s (freeByte s).2 := rfl

theorem chipByte_link (phase : Phase) (s : State) : LinkOnly s (chipByte phase s).2 := by
  unfold chipByte; cases phase <;> dsimp only <;> split <;> rfl

/-- An exchange of either phase leaves every register alone. -/
theorem xchgD_link (phase : Phase) (out : Byte) (s : State) : LinkOnly s (xchgD phase out s).2 :=
  (chipByte_link phase s).trans rfl

theorem recvByte_link (s : State) : LinkOnly s (recvByte s).2 := xchgD_link _ _ s

theorem sendByte_link (s : State) (b : Byte) : LinkOnly s (sendByte s b) := xchgD_link _ _ s

theorem pollSig_link (s : State) : LinkOnly s (pollSig s).2 := by
  unfold pollSig chipSig; split <;> rfl

theorem pollExpired_link (s : State) : LinkOnly s (pollExpired s).2 := rfl

theorem arm_link (d : Half) (s : State) : LinkOnly s (arm d s) := by
  unfold arm loadTimer; split <;> rfl

/-- A pending byte is what the next exchange answers, and it is consumed. -/
theorem recvByte_pending {s : State} {b : Byte} {r : List Byte} (h : s.env.rx = b :: r) :
    recvByte s = (b, ((s.setEnv { s.env with rx := r }).emit (.xchg s.cfg.dummy b)).emit (.dly .interByte)) := by
  simp [recvByte, xchgD, xchg, chipByte, h, delay]

/-- A byte sent is exchanged for the next one scripted for the sending phase. -/
theorem sendByte_scripted {s : State} {b : Byte} {r : List Byte} (out : Byte) (h : s.env.echo = b :: r) :
    sendByte s out = ((s.setEnv { s.env with echo := r }).emit (.xchg out b)).emit (.dly .interByte) := by
  simp [sendByte, xchgD, xchg, chipByte, h, delay]

/-- A byte sent is exchanged for some byte, and takes none of the chip's pending bytes or levels, nor the timer. -/
theorem sendByte_any (s : State) (out : Byte) : ∃ (b : Byte) (echo : List Byte) (draws : Nat), sendByte s out =
    { s with env := { s.env with echo := echo, draws := draws }, trace := .dly .interByte :: .xchg out b :: s.trace } := by
  cases h : s.env.echo with
  | nil => exact ⟨Config.freeByte s.env.draws, s.env.echo, s.env.draws + 1, by simp [sendByte, xchgD, xchg, chipByte, h, freeByte,
      delay, State.setEnv, State.emit]⟩
  | cons b r => exact ⟨b, r, s.env.draws, by rw [sendByte_scripted out h]; rfl⟩

/-- A scripted level is what the next poll sees. -/
theorem pollSig_scripted {s : State} {b : Bool} {r : List Bool} (h : s.env.sig = b :: r) :
    pollSig s = (b, (s.setEnv { s.env with sig := r }).emit (.sigq b)) := by
  simp [pollSig, chipSig, h]

/-- An exchange records its byte and the inter-byte delay. -/
theorem recvByte_trace (s : State) :
    (recvByte s).2.trace = .dly .interByte :: .xchg s.cfg.dummy (recvByte s).1 :: s.trace := by
  unfold recvByte xchgD xchg chipByte; dsimp only; split <;> rfl

theorem pollSig_trace (s : State) : (pollSig s).2.trace = .sigq (pollSig s).1 :: s.trace := by
  unfold pollSig chipSig; split <;> rfl

theorem arm_trace (d : Half) (s : State) : (arm d s).trace = .arm d :: s.trace := by
  unfold arm loadTimer; split <;> rfl

/-! ## The framing engine -/

theorem sendBytes_link (bytes : List Byte) (s : State) : LinkOnly s (sendBytes s bytes) := by
  induction bytes generalizing s with
  | nil => rfl
  | cons b r ih => exact (sendByte_link s b).trans (ih (sendByte s b))

/-- A sent frame is exchanged byte by byte for as many bytes, and takes none of the chip's pending bytes or levels, nor the
timer. -/
theorem sendBytes_any (bytes : List Byte) (s : State) : ∃ (ignored echo : List Byte) (draws : Nat),
    ignored.length = bytes.length ∧ sendBytes s bytes =
      { s with env := { s.env with echo := echo, draws := draws }, trace := sentEvents bytes ignored ++ s.trace } := by
  induction bytes generalizing s with
  | nil => exact ⟨[], s.env.echo, s.env.draws, rfl, rfl⟩
  | cons b r ih =>
    obtain ⟨i, echo1, draws1, h⟩ := sendByte_any s b
    obtain ⟨ignored, echo, draws, hl, h2⟩ := ih (sendByte s b)
    refine ⟨i :: ignored, echo, draws, by simp [hl], ?_⟩
    have : sendBytes s (b :: r) = sendBytes (sendByte s b) r := rfl
    rw [this, h2, h]
    simp [sentEvents, exchangeEvents]

/-- The same with the bytes scripted for the sending phase. -/
theorem sendBytes_scripted (bytes ignored echo : List Byte) (s : State) (h : s.env.echo = ignored ++ echo)
    (hl : ignored.length = bytes.length) : sendBytes s bytes =
      { s with env := { s.env with echo := echo }, trace := sentEvents bytes ignored ++ s.trace } := by
  induction bytes generalizing s ignored with
  | nil =>
    cases ignored with
    | nil => simp only [List.nil_append] at h; subst h; rfl
    | cons i ignored => simp at hl
  | cons b r ih =>
    cases ignored with
    | nil => simp at hl
    | cons i ignored =>
      have h1 := sendByte_scripted b (by simpa using h : s.env.echo = i :: (ignored ++ echo))
      have : sendBytes s (b :: r) = sendBytes (sendByte s b) r := rfl
      rw [this, ih ignored (sendByte s b) (by rw [h1]; rfl) (by simpa using hl), h1]
      simp [sentEvents, exchangeEvents, State.setEnv, State.emit]

theorem waitLoop_link (n : Nat) (s : State) : LinkOnly s (waitLoop n s).2 := by
  induction n generalizing s with
  | zero =>
    simp only [waitLoop]; split
    · exact pollSig_link s
    · exact (pollSig_link s).trans (pollExpired_link _)
  | succ n ih =>
    simp only [waitLoop]; split
    · exact pollSig_link s
    · exact ((pollSig_link s).trans (pollExpired_link _)).trans (ih _)

theorem waitReady_link (tmo : Half) (s : State) : LinkOnly s (waitReady tmo s).2 :=
  (arm_link tmo s).trans (waitLoop_link _ _)

/-- A line that is active at the first poll ends the wait at once, whatever the timer would say. -/
theorem waitLoop_active {n : Nat} {s : State} {r : List Bool} (h : s.env.sig = true :: r) :
    waitLoop n s = (true, (s.setEnv { s.env with sig := r }).emit (.sigq true)) := by
  cases n <;> simp [waitLoop, pollSig_scripted h]

theorem recvPayload_link (n : Nat) (s : State) : LinkOnly s (recvPayload n s).2 := by
  induction n generalizing s with
  | zero => rfl
  | succ n ih => exact (recvByte_link s).trans (ih _)

theorem recvPayload_length (n : Nat) (s : State) : (recvPayload n s).1.length = n := by
  induction n generalizing s with
  | zero => rfl
  | succ n ih => simp [recvPayload, ih]

/-- Pending bytes are what a run of exchanges answers, in order. -/
theorem recvPayload_pending (p r : List Byte) (s : State) (h : s.env.rx = p ++ r) :
    recvPayload p.length s =
      (p, { s with env := { s.env with rx := r }, trace := recvEvents s.cfg.dummy p ++ s.trace }) := by
  induction p generalizing s with
  | nil =>
    simp only [List.nil_append] at h
    subst h
    rfl
  | cons b p ih =>
    have hb := recvByte_pending (s := s) (b := b) (r := p ++ r) (by simpa using h)
    simp only [List.length_cons, recvPayload, hb]
    rw [ih _ (by rfl)]
    simp [recvEvents, exchangeEvents, State.setEnv, State.emit]

theorem recvFrame_parse (expected cap : Byte) (s : State) : ParseOnly s (recvFrame expected cap s).2 := by
  have setT (s : State) (t : Transient) : ParseOnly s (s.setT t) := rfl
  have step (s : State) : ParseOnly s (recvByte s).2 := (recvByte_link s).parse
  unfold recvFrame
  dsimp only
  split
  · exact step s
  split
  · exact ((step s).trans (step _)).trans (setT _ _)
  split
  · exact (((step s).trans (step _)).trans (setT _ _)).trans (step _)
  split
  · exact ((((step s).trans (step _)).trans (setT _ _)).trans (step _)).trans (step _)
  split
  · exact ((((step s).trans (step _)).trans (setT _ _)).trans (step _)).trans (step _)
  · exact (((((step s).trans (step _)).trans (setT _ _)).trans (step _)).trans (step _)).trans
      ((recvPayload_link _ _).parse.trans (setT _ _))

theorem receive_parse (expected cap : Byte) (tmo : Half) (s : State) : ParseOnly s (receive expected cap tmo s).2 := by
  unfold receive
  dsimp only
  split
  · exact (waitReady_link tmo s).parse.trans (recvFrame_parse _ _ _)
  · exact (waitReady_link tmo s).parse

theorem finish_bus (hold : Bool) (r : Reply × State) : BusOnly r.2 (finish hold r).2 := by
  unfold finish; dsimp only; split
  · rfl
  · split <;> rfl

@[simp] theorem finish_reply (hold : Bool) (r : Reply × State) : (finish hold r).1 = r.1 := rfl

@[simp] theorem finish_res (hold : Bool) (r : Reply × State) : (finish hold r).2.res = Result.ofReply r.1 := rfl

/-- The chip-select discipline of `Finish` (R147). -/
theorem finish_cs (hold : Bool) (r : Reply × State) : (finish hold r).2.cs = (!r.1.isErr && hold && r.2.cs) := by
  unfold finish; dsimp only
  cases r.1.isErr <;> cases hold <;> simp

/-- `Finish` takes no answer of the chip or the timer. -/
theorem finish_env (hold : Bool) (r : Reply × State) :
    (finish hold r).2.env = { r.2.env with draws := (finish hold r).2.env.draws } := by
  unfold finish; dsimp only; split
  · rfl
  · split <;> rfl

theorem finish_trace (hold : Bool) (r : Reply × State) :
    (finish hold r).2.trace = (if r.1.isErr || !hold then [.unsel] else []) ++ r.2.trace := by
  unfold finish; dsimp only
  cases r.1.isErr <;> cases hold <;> rfl

/-- An attempt rewrites the transient registers and nothing else. -/
theorem startAttempt_parse (a : BitVec 2) (s : State) : ParseOnly s (startAttempt a s) := rfl

@[simp] theorem startAttempt_env (a : BitVec 2) (s : State) : (startAttempt a s).env = s.env := rfl
@[simp] theorem startAttempt_trace (a : BitVec 2) (s : State) : (startAttempt a s).trace = s.trace := rfl

theorem latch_parse (req : List Byte) (expected cap : Byte) (hold : Bool) (tmo : Half) (s : State) :
    ParseOnly s (latch req expected cap hold tmo s) := rfl

theorem cmd_bus (opcode : Byte) (payload : List Byte) (cap : Byte) (hold : Bool) (s : State) :
    BusOnly s (cmd opcode payload cap hold s).2 := by
  unfold cmd
  exact ((latch_parse _ _ _ _ _ s).bus.trans (select_bus _)).trans
    (((sendBytes_link _ _).parse.bus.trans (receive_parse _ _ _ _).bus).trans (finish_bus _ _))

theorem waitResp_bus (tmo : Half) (hold : Bool) (s : State) : BusOnly s (waitResp tmo hold s).2 := by
  unfold waitResp
  exact ((latch_parse _ _ _ _ _ s).bus.trans (select_bus _)).trans ((receive_parse _ _ _ _).bus.trans (finish_bus _ _))

@[simp] theorem cmd_res (opcode : Byte) (payload : List Byte) (cap : Byte) (hold : Bool) (s : State) :
    (cmd opcode payload cap hold s).2.res = Result.ofReply (cmd opcode payload cap hold s).1 := rfl

@[simp] theorem waitResp_res (tmo : Half) (hold : Bool) (s : State) :
    (waitResp tmo hold s).2.res = Result.ofReply (waitResp tmo hold s).1 := rfl

/-- Chip-select after a CMD: held exactly on success with `hold` (R147). -/
theorem cmd_cs (opcode : Byte) (payload : List Byte) (cap : Byte) (hold : Bool) (s : State) :
    (cmd opcode payload cap hold s).2.cs = (!(cmd opcode payload cap hold s).1.isErr && hold) := by
  unfold cmd
  dsimp only
  rw [finish_cs, finish_reply, (receive_parse _ _ _ _).cs, (sendBytes_link _ _).cs, select_cs, Bool.and_true]

/-- Chip-select after a WAITRESP (R147). -/
theorem waitResp_cs (tmo : Half) (hold : Bool) (s : State) :
    (waitResp tmo hold s).2.cs = (!(waitResp tmo hold s).1.isErr && hold) := by
  unfold waitResp
  rw [finish_cs, finish_reply, (receive_parse _ _ _ _).cs, select_cs, Bool.and_true]

theorem runCmd_bus (c : Command) (s : State) : BusOnly s (runCmd c s).2 := cmd_bus _ _ _ _ s

theorem runCmd_cs (c : Command) (s : State) : (runCmd c s).2.cs = (!(runCmd c s).1.isErr && c.hold) := cmd_cs _ _ _ _ s

/-! ## Scripted runs -/

/-- An accepted response that the length byte can announce and the capacity admits is a valid run. -/
theorem Command.accepted_valid (p : Params) (c : Command) (payload : List Byte) (h : payload.length ≤ 253)
    (fits : payload.length ≤ c.cap.toNat) : (c.accepted p payload).Valid := by
  have := Parses.ok (expected := c.opcode) (cap := c.cap) (BitVec.ofNat 8 (payload.length + 2)) payload []
    (by simp; omega) fits
  exact .inr (by simpa [Command.accepted, Command.turn, responseFrame, Config.hdr, Config.statusOk] using this)

theorem acknowledged_valid (p : Params) (tmo : Half) (n : Nat) : (acknowledged p tmo n).Valid :=
  .inr (Parses.ok (expected := p.opCalibrateMode) (cap := 0) 0x02 [] [] rfl (by decide))

/-- The polls of a wait on scripted levels: `k` rounds in which both answer false, then the line active, or the timer expired in
that round. -/
theorem waitLoop_scripted (k : Nat) (answered : Bool) {n : Nat} {s : State} {sig : List Bool}
    (hs : s.env.sig = List.replicate k false ++ answered :: sig) (ht : s.env.timer = n) (hn : k ≤ n)
    (he : answered = false → n = k) :
    ∃ timer, waitLoop n s = (answered, { s with
      env := { s.env with sig := sig, timer := timer },
      trace := (if answered then [.sigq true] else [.expq true, .sigq false]) ++
        (List.replicate k [.expq false, .sigq false]).flatten ++ s.trace }) := by
  induction k generalizing n s with
  | zero =>
    have hp := pollSig_scripted (s := s) (b := answered) (r := sig) (by simpa using hs)
    cases answered with
    | true => exact ⟨s.env.timer, by rw [waitLoop_active (by simpa using hs)]; rfl⟩
    | false =>
      obtain rfl := he rfl
      exact ⟨0, by simp [waitLoop, hp, pollExpired, ht, State.setEnv, State.emit]⟩
  | succ k ih =>
    have hp := pollSig_scripted (s := s) (b := false) (r := List.replicate k false ++ answered :: sig)
      (by simpa [List.replicate_succ] using hs)
    obtain ⟨m, rfl⟩ : ∃ m, n = m + 1 := ⟨n - 1, by omega⟩
    have hx : (pollExpired (pollSig s).2).2 = { s with
        env := { s.env with sig := List.replicate k false ++ answered :: sig, timer := m },
        trace := .expq false :: .sigq false :: s.trace } := by
      simp [hp, pollExpired, ht, State.setEnv, State.emit]
    obtain ⟨timer, h⟩ := ih (n := m) (s := (pollExpired (pollSig s).2).2) (by rw [hx]) (by rw [hx]) (by omega)
      (fun h => by have := he h; omega)
    refine ⟨timer, ?_⟩
    have hu : waitLoop (m + 1) s = waitLoop m (pollExpired (pollSig s).2).2 := by simp [waitLoop, hp]
    rw [hu, h, hx]
    simp [List.replicate_succ']

/-- Arming takes one draw from the timer's script and nothing else. -/
theorem arm_any (d : Half) (s : State) : ∃ (timer draws : Nat), arm d s = { s with
    env := { s.env with counts := s.env.counts.tail, timer := timer, draws := draws }, trace := .arm d :: s.trace } ∧
    ∀ n, s.env.counts.head? = some n → timer = n := by
  unfold arm loadTimer
  cases h : s.env.counts with
  | nil => exact ⟨Config.freeCount s.env.draws, s.env.draws + 1, by simp [State.setEnv, State.emit, h], by simp⟩
  | cons n r => exact ⟨n, s.env.draws, by simp [State.setEnv, State.emit], by simp⟩

/-- `WaitReady` on the scripted answers of a run. -/
theorem waitReady_turn (c : Turn) {s : State} {sig : List Bool} (hs : s.env.sig = c.levels ++ sig)
    (ht : c.timed s.env.counts) :
    ∃ timer draws, waitReady c.tmo s = (c.answered, { s with
      env := { s.env with sig := sig, counts := s.env.counts.tail, timer := timer, draws := draws },
      trace := c.polls ++ .arm c.tmo :: s.trace }) := by
  obtain ⟨timer, draws, ha, hn⟩ := arm_any c.tmo s
  have hk : c.rounds ≤ timer ∧ (c.answered = false → timer = c.rounds) := by
    rcases ht with ⟨h0, h1⟩ | ⟨n, h, hle, heq⟩
    · simp [h0, h1]
    · rw [hn n h]; exact ⟨hle, heq⟩
  obtain ⟨timer2, h⟩ := waitLoop_scripted c.rounds c.answered (s := arm c.tmo s) (n := (arm c.tmo s).env.timer) (sig := sig)
    (by rw [ha]; simpa [Turn.levels] using hs) rfl (by rw [ha]; exact hk.1) (by rw [ha]; exact hk.2)
  refine ⟨timer2, draws, ?_⟩
  unfold waitReady
  rw [h, ha]
  simp [Turn.polls]

/-- Later exchanges stand before earlier ones. -/
theorem exchangeEvents_append (a b : List (Byte × Byte)) : exchangeEvents (a ++ b) = exchangeEvents b ++ exchangeEvents a := by
  induction a with
  | nil => simp [exchangeEvents]
  | cons x a ih => simp [exchangeEvents, ih]

theorem recvEvents_append (dummy : Byte) (a b : List Byte) :
    recvEvents dummy (a ++ b) = recvEvents dummy b ++ recvEvents dummy a := by
  simp [recvEvents, exchangeEvents_append]

/-- The state after these bytes were received, with what the chip has left. -/
def State.received (s : State) (bytes rest : List Byte) : State :=
  { s with env := { s.env with rx := rest }, trace := recvEvents s.cfg.dummy bytes ++ s.trace }

theorem State.received_nil {s : State} {rx : List Byte} (h : s.env.rx = rx) : s.received [] rx = s := by subst h; rfl

@[simp] theorem State.received_t (s : State) (bytes rest : List Byte) : (s.received bytes rest).t = s.t := rfl

@[simp] theorem State.received_setT (s : State) (bytes rest : List Byte) (t : Transient) :
    (s.received bytes rest).setT t = (s.setT t).received bytes rest := rfl

@[simp] theorem recvByte_received (s : State) (bytes rest : List Byte) (b : Byte) :
    recvByte (s.received bytes (b :: rest)) = (b, s.received (bytes ++ [b]) rest) := by
  rw [recvByte_pending (r := rest) rfl]
  simp only [State.received, recvEvents_append, List.append_assoc]
  rfl

theorem recvPayload_received (s : State) (bytes p rest : List Byte) :
    recvPayload p.length (s.received bytes (p ++ rest)) = (p, s.received (bytes ++ p) rest) := by
  rw [recvPayload_pending p rest _ rfl]
  simp [State.received, recvEvents_append]

/-- The parse of pending bytes (R144, R145): the reply and the bytes left are what `Parses` says, the bytes between are exchanged,
and beside them only the transient registers change. -/
theorem recvFrame_parses {expected cap : Byte} {bytes rest : List Byte} {r : Reply} (h : Parses expected cap bytes r rest)
    (s : State) (hrx : s.env.rx = bytes) : ∃ used t, bytes = used ++ rest ∧
      recvFrame expected cap s = (r, (s.setT t).received used rest) := by
  rw [← State.received_nil hrx]
  have short {l : Byte} (h : l.toNat < 2) : l.toNat < Config.minRespLen := h
  have long {l : Byte} (h : 2 ≤ l.toNat) : ¬ l.toNat < Config.minRespLen := Nat.not_lt.2 h
  cases h with
  | noHeader h _ bad =>
    exact ⟨[h], s.t, rfl, by simp only [recvFrame, recvByte_received]; exact if_pos bad⟩
  | invalidLength l _ bad =>
    exact ⟨[0x55, l], { s.t with len := l }, rfl, by
      simp only [recvFrame, recvByte_received]
      rw [if_neg (by decide), if_pos (short bad)]
      rfl⟩
  | chipStatus l st _ len bad =>
    exact ⟨[0x55, l, st], { s.t with len := l }, rfl, by
      simp only [recvFrame, recvByte_received, State.received_setT]
      rw [if_neg (by decide), if_neg (long len), if_pos (show st ≠ Config.statusOk from bad)]
      rfl⟩
  | invalidResponseOpcode l o _ len bad =>
    exact ⟨[0x55, l, 0x00, o], { s.t with len := l }, rfl, by
      simp only [recvFrame, recvByte_received, State.received_setT]
      rw [if_neg (by decide), if_neg (long len), if_neg (by decide), if_pos bad]
      rfl⟩
  | responseTooLarge l _ len bad =>
    exact ⟨[0x55, l, 0x00, expected], { s.t with len := l }, rfl, by
      simp only [recvFrame, recvByte_received, State.received_setT]
      rw [if_neg (by decide), if_neg (long len), if_neg (by decide), if_neg (by simp), if_pos bad]
      rfl⟩
  | ok l payload _ len fits =>
    exact ⟨[0x55, l, 0x00, expected] ++ payload, { s.t with len := l, resp := payload }, by simp, by
      have hl : l.toNat - 2 = payload.length := by omega
      simp only [recvFrame, recvByte_received, State.received_setT]
      rw [if_neg (by decide), if_neg (long (by omega)), if_neg (by decide), if_neg (by simp), if_neg (by omega), hl,
        recvPayload_received]
      rfl⟩

/-- A parse never answers `Timeout`. -/
theorem Parses.not_timeout {expected cap : Byte} {bytes rest : List Byte} {r : Reply} (h : Parses expected cap bytes r rest) :
    r ≠ .err .timeout := by
  cases h <;> simp

/-- The reply of a run does not depend on what the chip has pending after it. -/
theorem Parses.append {expected cap : Byte} {bytes rest : List Byte} {r : Reply} (h : Parses expected cap bytes r rest)
    (more : List Byte) : Parses expected cap (bytes ++ more) r (rest ++ more) := by
  cases h with
  | noHeader h _ bad => exact .noHeader h _ bad
  | invalidLength l _ bad => exact .invalidLength l _ bad
  | chipStatus l st _ len bad => exact .chipStatus l st _ len bad
  | invalidResponseOpcode l o _ len bad => exact .invalidResponseOpcode l o _ len bad
  | responseTooLarge l _ len bad => exact .responseTooLarge l _ len bad
  | ok l payload _ len fits => rw [List.cons_append, List.cons_append, List.cons_append, List.cons_append, List.append_assoc]; exact .ok l payload _ len fits

/-- `Receive` on the scripted answers of a run. -/
theorem receive_turn (c : Turn) (v : c.Valid) {s : State} {sig : List Bool} {rx : List Byte} (hs : s.env.sig = c.levels ++ sig)
    (hr : s.env.rx = c.received ++ rx) (ht : c.timed s.env.counts) :
    ∃ env t, receive c.expected c.cap c.tmo s = (c.reply, { s with
        env := env, t := t, trace := recvEvents s.cfg.dummy c.received ++ c.polls ++ .arm c.tmo :: s.trace }) ∧
      env.sig = sig ∧ env.rx = rx ∧ env.counts = s.env.counts.tail := by
  obtain ⟨timer, draws, hw⟩ := waitReady_turn c hs ht
  unfold receive
  rw [hw]
  rcases v with ⟨hto, hnil⟩ | hp
  · have : c.answered = false := by simp [Turn.answered, hto]
    refine ⟨{ s.env with sig := sig, counts := s.env.counts.tail, timer := timer, draws := draws }, s.t, ?_, rfl, ?_, rfl⟩
    · simp [this, hto, hnil, recvEvents, exchangeEvents]
    · simpa [hnil] using hr
  · have ha : c.answered = true := by
      simp [Turn.answered, hp.not_timeout]
    obtain ⟨used, t, hu, hf⟩ := recvFrame_parses (hp.append rx) { s with
      env := { s.env with sig := sig, counts := s.env.counts.tail, timer := timer, draws := draws },
      trace := c.polls ++ .arm c.tmo :: s.trace } hr
    have hu : used = c.received := by simpa using hu.symm
    subst hu
    refine ⟨{ s.env with sig := sig, rx := rx, counts := s.env.counts.tail, timer := timer, draws := draws }, t, ?_, rfl, rfl, rfl⟩
    simp only [ha, if_true, hf]
    simp [State.received, State.setT]

/-- The answers of the first of several runs, and what is left of them. -/
theorem Answers.first {s : State} {c : Turn} {turns : List Turn} {sig : List Bool} {rx : List Byte}
    (h : Answers s (c :: turns) sig rx) : c.Valid ∧ s.env.sig = c.levels ++ (turns.flatMap Turn.levels ++ sig) ∧
      s.env.rx = c.received ++ (turns.flatMap Turn.received ++ rx) ∧ c.timed s.env.counts :=
  ⟨h.1 c (by simp), by simpa using h.2.1, by simpa using h.2.2.1, h.2.2.2.1⟩

/-- A state that has taken the first run's answers has the other runs'. -/
theorem Answers.rest {s t : State} {c : Turn} {turns : List Turn} {sig : List Bool} {rx : List Byte}
    (h : Answers s (c :: turns) sig rx) (hs : t.env.sig = turns.flatMap Turn.levels ++ sig)
    (hr : t.env.rx = turns.flatMap Turn.received ++ rx) (hc : t.env.counts = s.env.counts.tail) : Answers t turns sig rx :=
  ⟨fun d m => h.1 d (by simp [m]), hs, hr, by rw [hc]; exact h.2.2.2.2⟩

/-- A timer whose draws are one a run, each at least its rounds and exactly these where it expires, lets the runs happen. -/
theorem timedAll_map {turns : List Turn} (draw : Turn → Nat) (rest : List Nat) (late : ∀ c ∈ turns, c.rounds ≤ draw c)
    (expires : ∀ c ∈ turns, c.answered = false → draw c = c.rounds) : TimedAll turns (turns.map draw ++ rest) := by
  induction turns with
  | nil => trivial
  | cons c turns ih =>
    exact ⟨.inr ⟨draw c, rfl, late c (by simp), expires c (by simp)⟩,
      ih (fun d m => late d (by simp [m])) (fun d m => expires d (by simp [m]))⟩

/-- Runs that are answered at their first polls need nothing of the timer. -/
theorem timedAll_prompt {turns : List Turn} (counts : List Nat) (prompt : ∀ c ∈ turns, c.rounds = 0 ∧ c.answered = true) :
    TimedAll turns counts := by
  induction turns generalizing counts with
  | nil => trivial
  | cons c turns ih => exact ⟨.inl (prompt c (by simp)), ih _ (fun d m => prompt d (by simp [m]))⟩

/-- A command on scripted answers (R141, R147): its reply, its events, chip-select and the result are those of the run, the
registers stay, and the answers of the later runs are left. -/
theorem runCmd_turn (c : Command) (n : Nat) (received : List Byte) (r : Reply) {s : State} {turns : List Turn} {sig : List Bool}
    {rx : List Byte} (h : Answers s (c.turn s.cfg n received r :: turns) sig rx) :
    ∃ t ignored, runCmd c s = (r, t) ∧ BusOnly s t ∧ t.cs = (!r.isErr && c.hold) ∧ t.res = Result.ofReply r ∧
      ignored.length = (c.turn s.cfg n received r).sent.length ∧
      t.trace = (c.turn s.cfg n received r).events s.cfg ignored ++ s.trace ∧ Answers t turns sig rx := by
  obtain ⟨hv, hs, hr, ht⟩ := h.first
  obtain ⟨ignored, echo, draws, hl, hsent⟩ :=
    sendBytes_any (requestFrame c.opcode c.payload) (select (latchCmd c.opcode c.payload c.cap c.hold s))
  obtain ⟨env, tr, hrec, h1, h2, h3⟩ := receive_turn (c.turn s.cfg n received r) hv
    (s := sendBytes (select (latchCmd c.opcode c.payload c.cap c.hold s)) (requestFrame c.opcode c.payload))
    (by rw [hsent]; exact hs) (by rw [hsent]; exact hr) (by rw [hsent]; exact ht)
  have hcmd : runCmd c s = finish c.hold (receive c.opcode c.cap s.cfg.tCmd
    (sendBytes (select (latchCmd c.opcode c.payload c.cap c.hold s)) (requestFrame c.opcode c.payload))) := rfl
  have hr1 : (runCmd c s).1 = r := by rw [hcmd]; exact congrArg Prod.fst hrec
  refine ⟨(runCmd c s).2, ignored, Prod.ext hr1 rfl, runCmd_bus c s, by rw [runCmd_cs, hr1], by rw [← hr1]; rfl, hl, ?_, ?_⟩
  all_goals
    simp only [Command.turn] at hrec
    rw [hcmd, hrec]
  · rw [finish_trace, hsent]
    simp only [Turn.events, Command.turn, select_trace, List.append_assoc, Bool.false_eq_true, if_false, List.append_nil,
      List.cons_append, List.nil_append]
    rfl
  · refine h.rest ?_ ?_ ?_ <;> rw [finish_env]
    · exact h1
    · exact h2
    · exact h3.trans (by rw [hsent]; rfl)

/-- A WAITRESP on scripted answers (R147, R150), said as for a command. -/
theorem waitResp_turn (tmo : Half) (hold : Bool) (n : Nat) (received : List Byte) (r : Reply) {s : State} {turns : List Turn}
    {sig : List Bool} {rx : List Byte} (h : Answers s (waitTurn s.cfg tmo hold n received r :: turns) sig rx) :
    ∃ t, waitResp tmo hold s = (r, t) ∧ BusOnly s t ∧ t.cs = (!r.isErr && hold) ∧ t.res = Result.ofReply r ∧
      t.trace = (waitTurn s.cfg tmo hold n received r).events s.cfg [] ++ s.trace ∧ Answers t turns sig rx := by
  obtain ⟨hv, hs, hr, ht⟩ := h.first
  obtain ⟨env, tr, hrec, h1, h2, h3⟩ := receive_turn (waitTurn s.cfg tmo hold n received r) hv
    (s := select (latchWait tmo hold s)) hs hr ht
  have hwait : waitResp tmo hold s = finish hold (receive s.cfg.opCalibrateMode 0 tmo (select (latchWait tmo hold s))) := rfl
  have hr1 : (waitResp tmo hold s).1 = r := by rw [hwait]; exact congrArg Prod.fst hrec
  refine ⟨(waitResp tmo hold s).2, Prod.ext hr1 rfl, waitResp_bus tmo hold s, by rw [waitResp_cs, hr1], by rw [← hr1]; rfl, ?_, ?_⟩
  all_goals
    simp only [waitTurn] at hrec
    rw [hwait, hrec]
  · rw [finish_trace]
    simp only [Turn.events, waitTurn, select_trace, List.append_assoc, Bool.false_eq_true, if_false, List.append_nil,
      List.cons_append, List.nil_append]
    rfl
  · refine h.rest ?_ ?_ ?_ <;> rw [finish_env]
    · exact h1
    · exact h2
    · exact h3

/-- One run is a conversation. -/
theorem Conversation.single (p : Params) (c : Turn) (ignored : List Byte) (all : ignored.length = c.sent.length) :
    Conversation p [c] (c.events p ignored) := by
  simpa using Conversation.cons c [] ignored [] all .nil

/-- Answers to no run leave the scripts as they are. -/
theorem Answers.done {s : State} {sig : List Bool} {rx : List Byte} (h : Answers s [] sig rx) :
    s.env.rx = rx ∧ s.env.sig = sig := ⟨by simpa using h.2.2.1, by simpa using h.2.1⟩

/-! ## The packet -/

theorem decodePacket_current (pkt : List Byte) (s : State) :
    decodePacket pkt s = s ∨ ∃ c, decodePacket pkt s = s.setCurrent c := by
  unfold decodePacket
  split
  · split
    · exact .inr ⟨_, rfl⟩
    · exact .inl rfl
  · exact .inl rfl

end Sys2Proof.Machine
end

