-- ==== Sys2Proof/Laws/PerInstr.lean ====
section
/-! SUPPORT. The family of per-instruction statements: how many bytes an instruction's encoding can have (30_encoding R91 to R95,
R110, R111). -/

namespace Sys2Proof.Laws.EncodeBound

/-- A well-formed instruction's encoding has at most 259 bytes: the longest is a CMD at the operation port, with its select code,
opcode, count, 254 payload bytes, capacity and hold. -/
def Statement (i : Instr) : Prop :=
  ∀ p : Params, i.wellFormed = true → (encode p i).length ≤ 259

theorem getVersion : Statement .getVersion := fun _ _ => by simp [encode, requestFrame]

theorem enableTouch : Statement .enableTouch := fun _ _ => by simp [encode, requestFrame]

theorem disableTouch : Statement .disableTouch := fun _ _ => by simp [encode, requestFrame]

theorem calibrateMode (calType : Byte) : Statement (.calibrateMode calType) := fun _ _ => by simp [encode, requestFrame]

theorem regStart : Statement .regStart := fun _ _ => by simp [encode, requestFrame]

theorem regRead (addr count : Byte) : Statement (.regRead addr count) := fun _ _ => by
  simp [encode, requestFrame, regReadPayload]

theorem regWrite (addr : Byte) (data : List Byte) : Statement (.regWrite addr data) := fun _ h => by
  have h : data.length ≤ 251 := of_decide_eq_true (Bool.and_eq_true_iff.mp h).2
  simp [encode, requestFrame, regWritePayload]; omega

theorem eepromWrite : Statement .eepromWrite := fun _ _ => by simp [encode, requestFrame]

theorem reqFrame (opcode : Byte) (payload : List Byte) : Statement (.reqFrame opcode payload) := fun _ h => by
  have h : payload.length ≤ 254 := of_decide_eq_true h
  simp [encode, requestFrame]; omega

theorem rspFrame (len status opcode : Byte) (payload : List Byte) : Statement (.rspFrame len status opcode payload) :=
  fun _ h => by
    have : len.toNat < 256 := len.isLt
    have h : payload.length = len.toNat - 2 := of_decide_eq_true h
    simp [encode]; omega

theorem pktPenDown (ignored : BitVec 6) (xlo xhi ylo yhi : Byte) : Statement (.pktPenDown ignored xlo xhi ylo yhi) :=
  fun _ _ => by simp [encode]

theorem pktPenUp (ignored : BitVec 6) (xlo xhi ylo yhi : Byte) : Statement (.pktPenUp ignored xlo xhi ylo yhi) :=
  fun _ _ => by simp [encode]

theorem pktInvalid (low : BitVec 7) (b1 b2 b3 b4 : Byte) : Statement (.pktInvalid low b1 b2 b3 b4) :=
  fun _ _ => by simp [encode]

theorem cmd (opcode : Byte) (payload : List Byte) (capacity : Byte) (hold : Bool) :
    Statement (.cmd opcode payload capacity hold) := fun _ h => by
  have h : payload.length ≤ 254 := of_decide_eq_true h
  simp [encode]; omega

theorem waitresp (timeout : Half) (hold : Bool) : Statement (.waitresp timeout hold) := fun _ _ => by simp [encode]

theorem init (width height : Half) (rotated : Bool) : Statement (.init width height rotated) := fun _ _ => by simp [encode]

theorem read : Statement .read := fun _ _ => by simp [encode]

theorem calstart : Statement .calstart := fun _ _ => by simp [encode]

theorem calpoint : Statement .calpoint := fun _ _ => by simp [encode]

theorem calwait (timeout : Half) : Statement (.calwait timeout) := fun _ _ => by simp [encode]

theorem setreg (reg value : Byte) : Statement (.setreg reg value) := fun _ _ => by simp [encode]

theorem regdump : Statement .regdump := fun _ _ => by simp [encode]

theorem reserved0 : Statement .reserved0 := fun _ _ => by simp [encode]

theorem reservedA : Statement .reservedA := fun _ _ => by simp [encode]

theorem reservedB : Statement .reservedB := fun _ _ => by simp [encode]

theorem reservedC : Statement .reservedC := fun _ _ => by simp [encode]

theorem reservedD : Statement .reservedD := fun _ _ => by simp [encode]

theorem reservedE : Statement .reservedE := fun _ _ => by simp [encode]

theorem reservedF : Statement .reservedF := fun _ _ => by simp [encode]

theorem select : Statement .select := fun _ _ => by simp [encode]

theorem unselect : Statement .unselect := fun _ _ => by simp [encode]

theorem xchg (out : Byte) : Statement (.xchg out) := fun _ _ => by simp [encode]

theorem decode : Statement .decode := fun _ _ => by simp [encode]

end Sys2Proof.Laws.EncodeBound
end

