-- ==== Sys2Proof/Tests/Slice0.lean ====
section
/-! SUPPORT. Tests: expected results are the spec's (95_test_vectors, 30_encoding), and a witness for the hypotheses of each
obligation. A test's comment names its vector; a witness is named after its obligation. -/

namespace Sys2Proof.Tests

open Sys2Proof.Machine

/-! ## Helpers -/

/-- The reset state with a chip script; while a request is sent the chip answers `00` (R132's example). -/
def fresh (rx : List Byte) (sig : List Bool) (counts : List Nat) : State :=
  { State.reset with env := { Env.reset with rx := rx, echo := List.replicate 40 0x00, sig := sig, counts := counts } }

/-- The end state of program P1, with a chip script: a session, 320x240, offset 20. -/
def session (rx : List Byte) (sig : List Bool) (counts : List Nat) : State :=
  { fresh rx sig counts with initialized := true, offset := 0x20, width := 320, height := 240 }

/-- A calibration at a point, chip-select held. -/
def calibration (point : BitVec 3) (rx : List Byte) (sig : List Bool) (counts : List Nat) : State :=
  { session rx sig counts with pointIndex := point, cs := true }

/-- The engine waits for the response of `CMD opcode, [], cap, 0`. -/
def waiting (opcode cap : Byte) : State :=
  { session [] [] [] with seq := .wait, op := .cmd, cs := true, t := { Transient.reset with expOp := opcode, cap := cap } }

/-- The outcome is a next state. -/
def isNext : Host.Outcome State Fault Refusal → Bool
  | .next _ => true
  | .fault _ => false
  | .refused _ => false

/-- The next state; the reset state where there is none. -/
def after : Host.Outcome State Fault Refusal → State
  | .next t => t
  | .fault _ => State.reset
  | .refused _ => State.reset

theorem next_after {o : Host.Outcome State Fault Refusal} (h : isNext o = true) : o = .next (after o) := by
  cases o <;> simp_all [isNext, after]

/-- The events of an instruction in the order they happen. -/
def events (i : Instr) (s : State) : List Event := (after (exec i s)).trace.reverse

/-- `>b ..`: these bytes are sent. -/
def sends (bytes : List Byte) : List Event := bytes.flatMap fun b => [.xchg b 0x00, .dly .interByte]

/-- `<b ..`: these bytes are received. -/
def gets (bytes : List Byte) : List Event := bytes.flatMap fun b => [.xchg 0x00 b, .dly .interByte]

/-- These events one after another. -/
def inOrder (parts : List (List Event)) : List Event := parts.flatten

/-- A command whose response is there at the first poll, without the release of chip-select. -/
def command (request response : List Byte) : List Event :=
  inOrder [[.sel], sends request, [.arm 1000, .sigq true], gets response]

/-- A wait whose response is there at the first poll. -/
def wait (timeout : Half) (response : List Byte) : List Event := inOrder [[.sel, .arm timeout, .sigq true], gets response]

/-- The result of an instruction, whether it ran, and chip-select after it. -/
def result (i : Instr) (s : State) : Bool × Result × Bool :=
  (isNext (exec i s), (after (exec i s)).res, (after (exec i s)).cs)

/-! ## Well-formedness: one ill-formed term a check, and the value next to it -/

set_option maxRecDepth 4096 in
theorem test_wf_regWrite : (Instr.regWrite 0x22 []).wellFormed = false ∧ (Instr.regWrite 0x22 [0xC5]).wellFormed = true ∧
    (Instr.regWrite 0x22 (List.replicate 252 0)).wellFormed = false ∧
    (Instr.regWrite 0x22 (List.replicate 251 0)).wellFormed = true := by decide

set_option maxRecDepth 4096 in
theorem test_wf_reqFrame : (Instr.reqFrame 0x99 (List.replicate 255 0)).wellFormed = false ∧
    (Instr.reqFrame 0x99 (List.replicate 254 0)).wellFormed = true := by decide

set_option maxRecDepth 4096 in
theorem test_wf_cmd : (Instr.cmd 0x13 (List.replicate 255 0) 0 false).wellFormed = false ∧
    (Instr.cmd 0x13 (List.replicate 254 0) 0 false).wellFormed = true := by decide

theorem test_wf_rspFrame : (Instr.rspFrame 0x03 0 0x22 []).wellFormed = false ∧
    (Instr.rspFrame 0x03 0 0x22 [0x20]).wellFormed = true ∧ (Instr.rspFrame 0x01 0 0x22 []).wellFormed = true := by decide

/-! ## Decoding: a word written out from the spec's encoding for every constructor -/

/-- R100's table, vectors VW1 to VW11. -/
theorem test_decode_wire :
    decode Params.default .wire [0x55, 0x01, 0x10] = .ok .getVersion [] ∧
    decode Params.default .wire [0x55, 0x01, 0x12] = .ok .enableTouch [] ∧
    decode Params.default .wire [0x55, 0x01, 0x13] = .ok .disableTouch [] ∧
    decode Params.default .wire [0x55, 0x02, 0x14, 0x04] = .ok (.calibrateMode 0x04) [] ∧
    decode Params.default .wire [0x55, 0x01, 0x22] = .ok .regStart [] ∧
    decode Params.default .wire [0x55, 0x04, 0x20, 0x00, 0x2E, 0x01] = .ok (.regRead 0x2E 0x01) [] ∧
    decode Params.default .wire [0x55, 0x06, 0x21, 0x00, 0x22, 0x02, 0xC5, 0x04] = .ok (.regWrite 0x22 [0xC5, 0x04]) [] ∧
    decode Params.default .wire [0x55, 0x01, 0x23] = .ok .eepromWrite [] ∧
    decode Params.default .wire [0x55, 0x03, 0x99, 0x01, 0x02] = .ok (.reqFrame 0x99 [0x01, 0x02]) [] := by decide

/-- A wire frame with a wrong length, address high byte or count is the generic frame, never a neighbour (R91, R175, R176). -/
theorem test_decode_wire_generic :
    decode Params.default .wire [0x55, 0x02, 0x13, 0x00] = .ok (.reqFrame 0x13 [0x00]) [] ∧
    decode Params.default .wire [0x55, 0x04, 0x20, 0x01, 0x2E, 0x01] = .ok (.reqFrame 0x20 [0x01, 0x2E, 0x01]) [] ∧
    decode Params.default .wire [0x55, 0x05, 0x21, 0x00, 0x22, 0x02, 0xC5] = .ok (.reqFrame 0x21 [0x00, 0x22, 0x02, 0xC5]) [] ∧
    decode Params.default .wire [0x54, 0x01, 0x13] = .error .header ∧
    decode Params.default .wire [0x55, 0x00, 0x13] = .error .requestLength ∧
    decode Params.default .wire [0x55, 0x02, 0x13] = .error .truncated := by decide

/-- R92: an accepted response, an error status, and a length byte below 2. -/
theorem test_decode_rsp :
    decode Params.default .rsp [0x55, 0x03, 0x00, 0x22, 0x20] = .ok (.rspFrame 0x03 0x00 0x22 [0x20]) [] ∧
    decode Params.default .rsp [0x55, 0x02, 0xFC, 0x13, 0x81] = .ok (.rspFrame 0x02 0xFC 0x13 []) [0x81] ∧
    decode Params.default .rsp [0x55, 0x01, 0x00, 0x13] = .ok (.rspFrame 0x01 0x00 0x13 []) [] := by decide

/-- R95, R96; vectors VT5, VT13, VT14, VT19. -/
theorem test_decode_pkt :
    decode Params.default .pkt [0x81, 0x68, 0x07, 0x38, 0x17] = .ok (.pktPenDown 0 0x68 0x07 0x38 0x17) [] ∧
    decode Params.default .pkt [0xFF, 0x68, 0x07, 0x38, 0x17] = .ok (.pktPenDown 0x3F 0x68 0x07 0x38 0x17) [] ∧
    decode Params.default .pkt [0xFE, 0x68, 0x07, 0x38, 0x17] = .ok (.pktPenUp 0x3F 0x68 0x07 0x38 0x17) [] ∧
    decode Params.default .pkt [0x55, 0x02, 0x00, 0x13, 0x00] = .ok (.pktInvalid 0x55 0x02 0x00 0x13 0x00) [] := by decide

/-- R110, R111; the operands as programs P1, P3, P4 write them (their byte layout is log 10's). -/
theorem test_decode_host :
    decode Params.default .host [0x01, 0x14, 0x01, 0x04, 0x00, 0x01] = .ok (.cmd 0x14 [0x04] 0x00 true) [] ∧
    decode Params.default .host [0x02, 0x13, 0x88, 0x01] = .ok (.waitresp 5000 true) [] ∧
    decode Params.default .host [0x03, 0x03, 0x20, 0x01, 0xE0, 0x01] = .ok (.init 800 480 true) [] ∧
    decode Params.default .host [0x04] = .ok .read [] ∧
    decode Params.default .host [0x05] = .ok .calstart [] ∧
    decode Params.default .host [0x06] = .ok .calpoint [] ∧
    decode Params.default .host [0x07, 0x13, 0x88] = .ok (.calwait 5000) [] ∧
    decode Params.default .host [0x08, 0x02, 0xC5] = .ok (.setreg 0x02 0xC5) [] ∧
    decode Params.default .host [0x09] = .ok .regdump [] := by decide

/-- R110: the reserved select codes, and a byte that is no select code. -/
theorem test_decode_reserved :
    decode Params.default .host [0x00] = .ok .reserved0 [] ∧ decode Params.default .host [0x0A] = .ok .reservedA [] ∧
    decode Params.default .host [0x0B] = .ok .reservedB [] ∧ decode Params.default .host [0x0C] = .ok .reservedC [] ∧
    decode Params.default .host [0x0D] = .ok .reservedD [] ∧ decode Params.default .host [0x0E] = .ok .reservedE [] ∧
    decode Params.default .host [0x0F] = .ok .reservedF [] ∧
    decode Params.default .host [0x10] = .error .selectCode := by decide

/-- The opcode table's numbers, first byte most significant (log 11). -/
theorem test_table_words :
    decodeTableWord 24 0x550110 = some .getVersion ∧ decodeTableWord 24 0x550214 = some (.calibrateMode 0) ∧
    decodeTableWord 24 0x550420 = some (.regRead 0 0) ∧ decodeTableWord 32 0x55000000 = some (.rspFrame 0 0 0 []) ∧
    decodeTableWord 40 0x8100000000 = some (.pktPenDown 0 0 0 0 0) ∧ decodeTableWord 40 0 = some (.pktInvalid 0 0 0 0 0) ∧
    decodeTableWord 8 0x1 = some (.cmd 0 [] 0 false) ∧ decodeTableWord 8 0xF = some .reservedF ∧
    decodeTableWord 24 0x550021 = none ∧ decodeTableWord 24 0x550521 = some (.reqFrame 0x21 [0, 0, 0, 0]) := by decide

/-- A placed word is what the next step runs. -/
theorem test_fetch : (after (step (State.reset.withFetchWord 8 0x4))).res = .notReady ∧
    (after (step (State.reset.withFetchWord 8 0x4))).inputs = [] := by decide

/-! ## Transport (VX1 to VX6) -/

theorem test_select : result .select (fresh [] [] []) = (true, .ok, true) ∧
    events .select (calibration 0 [] [] []) = [.sel] := by decide

theorem test_unselect : result .unselect (calibration 0 [] [] []) = (true, .ok, false) ∧
    events .unselect (fresh [] [] []) = [.unsel] := by decide

/-- VX5. -/
theorem test_xchg : events (.xchg 0x55) (calibration 0 [0xA7] [] []) = [.xchg 0x55 0xA7] := by decide

/-- VX5 as the helper, in both phases: the byte is drawn, recorded and returned. -/
theorem test_xchgD :
    (xchgD .receiving 0x55 (calibration 0 [0xA7] [] [])).1 = 0xA7 ∧
    (xchgD .receiving 0x55 (calibration 0 [0xA7] [] [])).2.trace = [.dly .interByte, .xchg 0x55 0xA7] ∧
    (xchgD .sending 0x55 (calibration 0 [0xA7] [] [])).1 = 0x00 ∧
    (sendByte (calibration 0 [0xA7] [] []) 0x55).trace = [.dly .interByte, .xchg 0x55 0x00] := by decide

/-- VX6. -/
theorem test_xchg_unselected : isNext (exec (.xchg 0x55) (fresh [0xA7] [] [])) = false := by decide

/-! ## Framing engine -/

/-- VF1, every event. -/
theorem test_cmd_trace : events (.cmd 0x13 [] 0 false) (fresh [0x55, 0x02, 0x00, 0x13] [true] [1]) =
    inOrder [command [0x55, 0x01, 0x13] [0x55, 0x02, 0x00, 0x13], [.unsel, .ret .cmd (some (.payload []))]] := by decide

/-- The result of `CMD opcode, [], cap, 0` on a response, and what is left in the chip. -/
def replyTo (opcode cap : Byte) (rx : List Byte) : Result × List Byte :=
  let t := after (exec (.cmd opcode [] cap false) (fresh rx [true] [1]))
  (t.res, t.env.rx)

/-- VF3, VF4, VF5, VF6, VF7, VF9, VF10, VF11, VF12, VF14, VF17, VF18. -/
theorem test_cmd_outcomes :
    replyTo 0x13 0 [0x54, 0x02, 0x00, 0x13] = (.err .noHeader, [0x02, 0x00, 0x13]) ∧
    replyTo 0x13 0 [0x81, 0x00, 0x10, 0x00, 0x10] = (.err .noHeader, [0x00, 0x10, 0x00, 0x10]) ∧
    replyTo 0x13 0 [0x55, 0x01, 0x00, 0x13] = (.err .invalidLength, [0x00, 0x13]) ∧
    replyTo 0x13 0 [0x55, 0x00] = (.err .invalidLength, []) ∧
    replyTo 0x13 0 [0x55, 0x02, 0xFC, 0x13] = (.err (.chipStatus 0xFC), [0x13]) ∧
    replyTo 0x13 0 [0x55, 0x02, 0x00, 0x12] = (.err .invalidResponseOpcode, []) ∧
    replyTo 0x13 0 [0x55, 0x03, 0x00, 0x13, 0xAA] = (.err .responseTooLarge, [0xAA]) ∧
    replyTo 0x10 3 [0x55, 0x05, 0x00, 0x10, 0x01, 0x02, 0x03] = (.payload [0x01, 0x02, 0x03], []) ∧
    replyTo 0x10 2 [0x55, 0x05, 0x00, 0x10, 0x01, 0x02, 0x03] = (.err .responseTooLarge, [0x01, 0x02, 0x03]) ∧
    replyTo 0x10 3 [0x55, 0x03, 0x00, 0x10, 0x07] = (.payload [0x07], []) ∧
    replyTo 0x13 0 [0x55, 0x05, 0xFC, 0x12, 0x01, 0x02, 0x03] = (.err (.chipStatus 0xFC), [0x12, 0x01, 0x02, 0x03]) ∧
    replyTo 0x13 0 [0x55, 0x05, 0x00, 0x12, 0x01, 0x02, 0x03] = (.err .invalidResponseOpcode, [0x01, 0x02, 0x03]) := by decide

/-- VU4: silent, the timer expired at its second poll. -/
theorem test_waitresp_silent : events (.waitresp 5000 true) (session [] [false, false] [1]) =
    [.sel, .arm 5000, .sigq false, .expq false, .sigq false, .expq true, .unsel, .ret .waitresp (some (.err .timeout))] := by decide

/-- VU1, VU2, VU5, VU6. -/
theorem test_waitresp_results :
    result (.waitresp 5000 true) (session [0x55, 0x02, 0x00, 0x14] [true] [1]) = (true, .payload [], true) ∧
    result (.waitresp 5000 false) (session [0x55, 0x02, 0x00, 0x14] [true] [1]) = (true, .payload [], false) ∧
    result (.waitresp 5000 true) (session [0x55, 0x02, 0x00, 0x13] [true] [1]) = (true, .err .invalidResponseOpcode, false) ∧
    result (.waitresp 5000 true) (session [0x55, 0x03, 0x00, 0x14, 0x01] [true] [1]) =
      (true, .err .responseTooLarge, false) := by decide

/-- VF19's request as a frame. -/
theorem test_reqFrame : events (.reqFrame 0x21 [0x00, 0x22, 0x01, 0xC5]) (session [] [] [1]) =
    inOrder [[.sel], sends [0x55, 0x05, 0x21, 0x00, 0x22, 0x01, 0xC5], [.arm 1000]] := by decide

/-- VF11's response, offered to the engine that waits for it. -/
theorem test_rspFrame_accepted : result (.rspFrame 0x05 0x00 0x10 [0x01, 0x02, 0x03]) (waiting 0x10 3) =
    (true, .payload [0x01, 0x02, 0x03], false) := by decide

/-- Offered to an idle engine it stays pending, with the line active (R264). -/
theorem test_rspFrame_pending : (after (exec (.rspFrame 0x02 0x00 0x13 []) (session [] [] []))).env.rx = [0x55, 0x02, 0x00, 0x13] ∧
    (after (exec (.rspFrame 0x02 0x00 0x13 []) (session [] [] []))).env.sig = [true] := by decide

/-! ## Wire commands (VW1 to VW11) -/

theorem test_getVersion : result .getVersion (session [0x55, 0x05, 0x00, 0x10, 0x01, 0x21, 0x15] [true] [1]) =
    (true, .payload [0x01, 0x21, 0x15], false) := by decide

theorem test_enableTouch : result .enableTouch (session [0x55, 0x02, 0x00, 0x12] [true] [1]) = (true, .payload [], false) := by decide

theorem test_disableTouch : result .disableTouch (session [0x55, 0x02, 0x00, 0x12] [true] [1]) =
    (true, .err .invalidResponseOpcode, false) := by decide

/-- VF15, VF16. -/
theorem test_calibrateMode :
    events (.calibrateMode 0x04) (session [0x55, 0x02, 0x00, 0x14] [true] [1]) =
      command [0x55, 0x02, 0x14, 0x04] [0x55, 0x02, 0x00, 0x14] ∧
    result (.calibrateMode 0x04) (session [0x55, 0x02, 0x05, 0x14] [true] [1]) = (true, .err (.chipStatus 0x05), false) := by decide

/-- VW5, VW7. -/
theorem test_regStart :
    (after (exec .regStart (fresh [0x55, 0x03, 0x00, 0x22, 0x20] [true] [1]))).offset = 0x20 ∧
    result .regStart (fresh [0x55, 0x04, 0x00, 0x22, 0x20, 0x00] [true] [1]) = (true, .err .responseTooLarge, false) := by decide

/-- VW8. -/
theorem test_regRead : result (.regRead 0x2E 1) (session [0x55, 0x03, 0x00, 0x20, 0x19] [true] [1]) =
      (true, .payload [0x19], false) ∧
    (events (.regRead 0x2E 1) (session [0x55, 0x03, 0x00, 0x20, 0x19] [true] [1])).take 13 =
      inOrder [[.sel], sends [0x55, 0x04, 0x20, 0x00, 0x2E, 0x01]] := by decide

/-- VW10. -/
theorem test_regWrite : (events (.regWrite 0x22 [0xC5, 0x04]) (session [0x55, 0x02, 0x00, 0x21] [true] [1])).take 17 =
    inOrder [[.sel], sends [0x55, 0x06, 0x21, 0x00, 0x22, 0x02, 0xC5, 0x04]] := by decide

theorem test_regWrite_count : exec (.regWrite 0x22 []) (session [] [] []) = .refused .regWriteCount := rfl

theorem test_eepromWrite : result .eepromWrite (session [0x55, 0x02, 0x00, 0x23] [true] [1]) = (true, .payload [], false) := by decide

/-! ## Session -/

/-- Program P1: every event. -/
theorem test_init_trace : events (.init 320 240 false)
      (fresh [0x55, 0x02, 0x00, 0x13, 0x55, 0x03, 0x00, 0x22, 0x20, 0x55, 0x02, 0x00, 0x12] [true, true, true] [1, 1, 1]) =
    inOrder [command [0x55, 0x01, 0x13] [0x55, 0x02, 0x00, 0x13], [.unsel],
      command [0x55, 0x01, 0x22] [0x55, 0x03, 0x00, 0x22, 0x20], [.unsel],
      command [0x55, 0x01, 0x12] [0x55, 0x02, 0x00, 0x12], [.unsel, .ret .init (some (.bool true))]] := by decide

/-- VS3: the cancel status twice in attempt 1, once in attempt 2; all of it is read from the chip. -/
theorem test_init_cancel :
    let t := after (exec (.init 100 100 false) (fresh
      [0x55, 0x02, 0xFC, 0x55, 0x02, 0xFC, 0x55, 0x02, 0xFC, 0x55, 0x02, 0x00, 0x13, 0x55, 0x03, 0x00, 0x22, 0x00,
       0x55, 0x02, 0x00, 0x12] (List.replicate 6 true) (List.replicate 6 1)))
    t.res = .bool true ∧ t.offset = 0x00 ∧ t.env.rx = [] ∧ t.env.sig = [] ∧ t.trace.count (.dly .retry) = 2 := by decide

/-- VS9: the address wraps. -/
theorem test_setreg : (events (.setreg 0x0E 0x19)
      { session [0x55, 0x02, 0x00, 0x21] [true] [1] with offset := 0xF8 }).take 15 =
    inOrder [[.sel], sends [0x55, 0x05, 0x21, 0x00, 0x06, 0x01, 0x19]] := by decide

/-- VS7, VS8, VS10. -/
theorem test_setreg_results : result (.setreg 0x02 0xC5) (fresh [] [] []) = (true, .notReady, false) ∧
    result (.setreg 0x02 0xC5) (session [0x55, 0x02, 0x00, 0x21] [true] [1]) = (true, .ok, false) ∧
    result (.setreg 0x7F 0x00) (session [0x55, 0x02, 0x01, 0x21] [true] [1]) = (true, .err (.chipStatus 0x01), false) := by decide

set_option maxRecDepth 4096 in
/-- VS12: a silent register does not stop the dump. -/
theorem test_regdump : (after (exec .regdump (session
      [0x55, 0x05, 0x00, 0x10, 0x01, 0x21, 0x15, 0x55, 0x03, 0x00, 0x20, 0xC5, 0x55, 0x03, 0x00, 0x20, 0x00,
       0x55, 0x03, 0x00, 0x20, 0x19] [true, true, false, false, true, true] [1, 1, 1, 1, 1]))).sink.reverse =
    [.offset 0x20, .reply (.ok [0x01, 0x21, 0x15]), .reply (.ok [0xC5]), .reply (.err .timeout), .reply (.ok [0x00]),
     .reply (.ok [0x19])] := by decide

/-- VS11. -/
theorem test_regdump_uninitialized : events .regdump (fresh [] [] []) = [.ret .regdump none] := by decide

/-! ## Calibration -/

/-- VC13. -/
theorem test_calstart :
    let t := after (exec .calstart (session
      [0x55, 0x02, 0x00, 0x13, 0x55, 0x03, 0x00, 0x22, 0x20, 0x55, 0x02, 0x00, 0x21, 0x55, 0x02, 0x00, 0x14]
      [true, true, true, true] [1, 1, 1, 1]))
    t.res = .bool true ∧ t.pointIndex = 0 ∧ t.cs = true ∧ t.env.rx = [] := by decide

/-- VC16, program P6. -/
theorem test_calstart_fails :
    let t := after (exec .calstart (session
      [0x55, 0x02, 0x00, 0x13, 0x55, 0x03, 0x00, 0x22, 0x20, 0x55, 0x02, 0x00, 0x20, 0x55, 0x02, 0x00, 0x13]
      [true, true, true, true, false, false] [1, 1, 1, 1, 1]))
    t.res = .bool false ∧ t.pointIndex = 5 ∧ t.cs = false ∧ t.offset = 0x20 ∧ t.env.sig = [] := by decide

/-- The four corners of a display. -/
def corners (width height : Half) (inset : Byte) : List (Option (Half × Half)) :=
  [0, 1, 2, 3, 4].map fun p => corner p width height inset

/-- VC1, VC3, VC7, VC8, VC10, VC11. -/
theorem test_corners :
    corners 320 240 25 = [some (20, 15), some (300, 15), some (300, 225), some (20, 225), none] ∧
    corners 100 100 25 = [some (6, 6), some (94, 6), some (94, 94), some (6, 94), none] ∧
    corners 320 240 255 = [some (204, 153), some (116, 153), some (116, 87), some (204, 87), none] ∧
    corners 65535 65535 25 = [some (4095, 4095), some (-4096, 4095), some (-4096, -4096), some (4095, -4096), none] ∧
    corners 1 1 255 = [some (0, 0), some (1, 0), some (1, 1), some (0, 1), none] := by decide

theorem test_calpoint : result .calpoint (calibration 1 [] [] []) = (true, .point 300 15, true) ∧
    result .calpoint (session [] [] []) = (true, .none, false) := by decide

/-- VC18. -/
theorem test_calwait_last : events (.calwait 5000) (calibration 3
      [0x55, 0x02, 0x00, 0x14, 0x55, 0x02, 0x00, 0x14, 0x55, 0x02, 0x00, 0x12] [true, true, true] [1, 1, 1]) =
    inOrder [wait 5000 [0x55, 0x02, 0x00, 0x14], wait 5000 [0x55, 0x02, 0x00, 0x14],
      command [0x55, 0x01, 0x12] [0x55, 0x02, 0x00, 0x12], [.unsel, .ret .calwait (some (.more false))]] := by decide

/-- VC19: the commit wait times out, `Finish` and `CalFail` both release. -/
theorem test_calwait_commit_timeout : events (.calwait 5000) (calibration 3
      [0x55, 0x02, 0x00, 0x14] [true, false, false] [1, 1]) =
    inOrder [wait 5000 [0x55, 0x02, 0x00, 0x14],
      [.sel, .arm 5000, .sigq false, .expq false, .sigq false, .expq true, .unsel, .unsel, .ret .calwait (some .none)]] := by decide

/-! ## Touch -/

/-- `S.current` after one packet of bytes, from `{5, 6, true}`. -/
def packetGives (width height : Half) (rotated : Bool) (bytes : List Byte) : Coord :=
  packetResult width height rotated ⟨5, 6, true⟩ bytes

/-- VT1 to VT8. -/
theorem test_packets_scaling :
    packetGives 320 240 false [0x81, 0x00, 0x00, 0x00, 0x00] = ⟨0, 0, true⟩ ∧
    packetGives 320 240 false [0x81, 0x00, 0x10, 0x00, 0x10] = ⟨160, 120, true⟩ ∧
    packetGives 320 240 false [0x80, 0x7F, 0x1F, 0x7F, 0x1F] = ⟨319, 239, false⟩ ∧
    packetGives 320 240 false [0x81, 0x00, 0x20, 0x00, 0x20] = ⟨320, 240, true⟩ ∧
    packetGives 320 240 true [0x81, 0x68, 0x07, 0x38, 0x17] = ⟨175, 78, true⟩ ∧
    packetGives 320 240 false [0x81, 0x0D, 0x00, 0x12, 0x00] = ⟨1, 1, true⟩ := by decide

/-- VT9, VT12, VT16, VT18, VT21, VT24. -/
theorem test_packets_corners :
    packetGives 320 240 false [0x81, 0xFF, 0xFF, 0xFF, 0xFF] = ⟨1279, 959, true⟩ ∧
    packetGives 8191 8191 false [0x81, 0x7F, 0x7F, 0x7F, 0x7F] = ⟨32762, 32762, true⟩ ∧
    packetGives 320 240 false [0x7F, 0x68, 0x07, 0x38, 0x17] = ⟨5, 6, true⟩ ∧
    packetGives 320 240 false [0x01, 0x68, 0x07, 0x38, 0x17] = ⟨5, 6, true⟩ ∧
    packetGives 65535 8192 false [0x81, 0x7F, 0x7F, 0x7F, 0x7F] = ⟨-20, 32766, true⟩ ∧
    packetGives 800 480 true [0x81, 0x7F, 0x1F, 0x7F, 0x1F] = ⟨479, 799, true⟩ := by decide

/-- VT5. -/
theorem test_pktPenDown : (after (exec (.pktPenDown 0 0x68 0x07 0x38 0x17) (session [] [] []))).current = ⟨78, 175, true⟩ := by decide

/-- VT14. -/
theorem test_pktPenUp : (after (exec (.pktPenUp 0x3F 0x68 0x07 0x38 0x17) (session [] [] []))).current = ⟨78, 175, false⟩ := by decide

/-- VT19. -/
theorem test_pktInvalid : (after (exec (.pktInvalid 0x55 0x02 0x00 0x13 0x00) (session [] [] []))).current = ⟨0, 0, false⟩ ∧
    events (.pktInvalid 0x55 0x02 0x00 0x13 0x00) (session [] [] []) =
      inOrder [[.sel], gets [0x55, 0x02, 0x00, 0x13, 0x00], [.unsel]] := by decide

/-- VD1. -/
theorem test_decode_two_packets :
    events .decode (session [0x81, 0x00, 0x10, 0x00, 0x10, 0x81, 0x68, 0x07, 0x38, 0x17] [true, true, false] [9]) =
    inOrder [[.arm 1000, .sigq true, .expq false, .sel], gets [0x81, 0x00, 0x10, 0x00, 0x10],
      [.unsel, .sigq true, .expq false, .sel], gets [0x81, 0x68, 0x07, 0x38, 0x17], [.unsel, .sigq false]] := by decide

/-- VD3: the timer expires after one packet. -/
theorem test_decode_expires :
    let t := after (exec .decode (session [0x81, 0x00, 0x10, 0x00, 0x10] [true, true] [1]))
    t.current = ⟨160, 120, true⟩ ∧ t.cs = false ∧ t.trace.take 2 = [.expq true, .sigq true] ∧ t.env.rx = [] := by decide

/-- VR1, VR2, VR3, VR5: result and `S.lastReported` after. -/
theorem test_read :
    (after (exec .read (fresh [] [] []))).res = .notReady ∧ (after (exec .read (session [] [] []))).res = .noNew ∧
    (after (exec .read { session [] [] [] with current := ⟨78, 175, true⟩ })).res = .coord ⟨78, 175, true⟩ ∧
    (after (exec .read { session [] [] [] with current := ⟨78, 175, true⟩ })).lastReported = ⟨78, 175, true⟩ ∧
    (after (exec .read { session [] [] [] with current := ⟨78, 175, false⟩, lastReported := ⟨78, 175, true⟩ })).res =
      .coord ⟨78, 175, false⟩ := by decide

/-- VR4, VR6, VR7. -/
theorem test_read_by_value :
    (after (exec .read { session [] [] [] with current := ⟨78, 175, true⟩, lastReported := ⟨78, 175, true⟩ })).res = .noNew ∧
    (after (exec .read { session [] [] [] with current := ⟨79, 175, true⟩, lastReported := ⟨78, 175, true⟩ })).res =
      .coord ⟨79, 175, true⟩ ∧
    (after (exec .read { session [] [] [] with current := ⟨78, 176, true⟩, lastReported := ⟨78, 175, true⟩ })).res =
      .coord ⟨78, 176, true⟩ := by decide

/-! ## What the chip offers is never refused -/

/-- VF3 offered to a waiting engine: the error is reported, the rest stays in the chip. -/
theorem test_chip_offers_no_frame :
    let t := after (step { waiting 0x13 0 with inputs := [.word .rsp [0x54, 0x02, 0x00, 0x13]] })
    t.res = .err .noHeader ∧ t.env.rx = [0x02, 0x00, 0x13] ∧ t.cs = false ∧ t.seq = .idle := by decide

/-- What follows a frame stays pending (R305, R306); a packet cut short is pending. -/
theorem test_chip_offers_more :
    (after (step { waiting 0x13 0 with inputs := [.word .rsp [0x55, 0x02, 0x00, 0x13, 0x81, 0x68]] })).env.rx = [0x81, 0x68] ∧
    (after (step { waiting 0x13 0 with inputs := [.word .rsp [0x55, 0x02, 0x00, 0x13, 0x81, 0x68]] })).res = .payload [] ∧
    (after (step { session [] [] [] with inputs := [.word .pkt [0x81, 0x68]] })).env.rx = [0x81, 0x68] := by decide

/-! ## The sequencer -/

/-- VF1 event by event: 3 sends, one poll, 4 receives, the reply. -/
theorem test_sequencer_cmd :
    let t := seqRun 9 (after (begin (.cmd 0x13 [] 0 false) (fresh [0x55, 0x02, 0x00, 0x13] [true] [1])))
    t.seq = .idle ∧ t.trace = (after (exec (.cmd 0x13 [] 0 false) (fresh [0x55, 0x02, 0x00, 0x13] [true] [1]))).trace := by decide

/-- What the sequencer shows of a byte's index (R26, R33), event by event for `n` events. -/
def indexes : Nat → State → List (Seq × Byte)
  | 0, s => [(s.seq, s.t.k)]
  | n + 1, s => (s.seq, s.t.k) :: indexes n (seqStep s)

/-- VF14 with a payload of two bytes: `S.k` is the index of the byte that is sent or received. -/
theorem test_index_cmd :
    indexes 9 (after (begin (.cmd 0x10 [] 3 false) (fresh [0x55, 0x04, 0x00, 0x10, 0x07, 0x08] [true] [1]))) =
      [(.tx 0, 0), (.tx 1, 1), (.tx 2, 2), (.wait, 0), (.rxHdr, 0), (.rxLen, 1), (.rxStatus, 2), (.rxOpcode, 3),
       (.rxPayload 0, 0), (.rxPayload 1, 1)] := by decide

/-- The last byte of the longest request has index 256, of which `S.k` holds 8 bits. -/
theorem test_index_longest : ((session [] [] []).goTo (.tx 256)).t.k = 0 ∧ ((session [] [] []).goTo (.tx 255)).t.k = 255 := by decide

/-- A packet's bytes (R26 `PKT(k)`). -/
theorem test_index_packet :
    (indexes 6 (after (begin .decode (session [0x81, 0x68, 0x07, 0x38, 0x17] [true, false] [1])))).drop 1 =
      [(.pkt 0, 0), (.pkt 1, 1), (.pkt 2, 2), (.pkt 3, 3), (.pkt 4, 4), (.wait, 0)] := by decide

/-! ## Witnesses: states and operands that meet all hypotheses of an obligation together, a clause at a time -/

/-- A request payload of the most bytes. -/
def longest : List Byte := List.replicate 254 0

theorem longest_length : longest.length = 254 := List.length_replicate

/-- An engine that sends a request. -/
def sending : State := { session [] [] [] with seq := .tx 0, op := .cmd, cs := true }

/-- A timer that would go on for three more rounds after a run that is answered. -/
def ample (c : Turn) : Nat := if c.answered then c.rounds + 3 else c.rounds

/-- The chip's scripts are the answers of these runs, and the timer's draws are ample. -/
def scripted (s : State) (turns : List Turn) : State :=
  { s with env := { s.env with rx := turns.flatMap Turn.received, sig := turns.flatMap Turn.levels, counts := turns.map ample } }

theorem answers_scripted (s : State) (turns : List Turn) (h : ∀ c ∈ turns, c.Valid) : Answers (scripted s turns) turns [] [] :=
  ⟨h, by simp [scripted], by simp [scripted], by
    simpa [scripted] using timedAll_map (turns := turns) ample [] (fun c _ => by unfold ample; split <;> omega)
      (fun c _ h => by simp [ample, h])⟩

/-- The timer's draws at their bounds: exactly the rounds, for a run that is answered and for one that is not; a timer that has no
script is enough for a run answered at its first poll, and for nothing else. -/
theorem test_timed :
    ((cRegStart Params.default).turn Params.default 2 [0x54] (.err .noHeader)).timed [2] ∧
    ((cRegStart Params.default).turn Params.default 2 [0x54] (.err .noHeader)).timed [9] ∧
    ¬ ((cRegStart Params.default).turn Params.default 2 [0x54] (.err .noHeader)).timed [1] ∧
    ((cRegStart Params.default).turn Params.default 1 [] (.err .timeout)).timed [1] ∧
    ¬ ((cRegStart Params.default).turn Params.default 1 [] (.err .timeout)).timed [2] ∧
    ((cRegStart Params.default).turn Params.default 0 [0x54] (.err .noHeader)).timed [] ∧
    ¬ ((cRegStart Params.default).turn Params.default 2 [0x54] (.err .noHeader)).timed [] := by
  simp [Turn.timed, Turn.answered, Command.turn]

/-- The runs of program P1. -/
def initTurns : List Turn :=
  [(cDisableTouch Params.default).accepted Params.default [], (cRegStart Params.default).accepted Params.default [0x20],
   (cEnableTouch Params.default).accepted Params.default []]

theorem initTurns_valid : ∀ c ∈ initTurns, c.Valid := by
  simp only [initTurns, List.forall_mem_cons, List.not_mem_nil, false_imp_iff, implies_true, and_true]
  refine ⟨?_, ?_, ?_⟩ <;> exact Command.accepted_valid _ _ _ (by decide) (by decide)

/-- A run of a command that the chip leaves unanswered, the timer expired at its second poll. -/
def silent (c : Command) : Turn := c.turn Params.default 1 [] (.err .timeout)

theorem silent_valid (c : Command) : (silent c).Valid := .inl ⟨rfl, rfl⟩

/-- Disable-touch answered with the cancel status. -/
def cancelledTouch : Turn :=
  (cDisableTouch Params.default).turn Params.default 0 [0x55, 0x02, 0xFC] (.err (.chipStatus Params.default.statusCancel))

theorem cancelledTouch_valid : cancelledTouch.Valid := .inr (.chipStatus _ _ _ (by decide) (by decide))

/-- The runs of a calibration's start (P3). -/
def calTurns : List Turn :=
  [(cDisableTouch Params.default).accepted Params.default [], (cRegStart Params.default).accepted Params.default [0x20],
   (insetWrite Params.default 0x20).accepted Params.default [], (cCalibrateMode Params.default 0x04).accepted Params.default []]

theorem calTurns_valid : ∀ c ∈ calTurns, c.Valid := by
  simp only [calTurns, List.forall_mem_cons, List.not_mem_nil, false_imp_iff, implies_true, and_true]
  refine ⟨?_, ?_, ?_, ?_⟩ <;> exact Command.accepted_valid _ _ _ (by decide) (by decide)

theorem witness_StepRunsTheDecodedInstruction :
    decode Params.default .host [0x04] = .ok .read [] ∧ decode Params.default .host [0x10] = .error .selectCode ∧
    (State.reset.setInputs [.word .host [0x04]]).inputs = .word .host [0x04] :: [] ∧
    (State.reset.setInputs [.word .host [0x04]]).seq = .idle ∧
    (sending.setInputs [.word .rsp [0x55, 0x01, 0x00, 0x13]]).inputs = .word .rsp [0x55, 0x01, 0x00, 0x13] :: [] ∧
    decode Params.default .rsp [0x55, 0x01, 0x00, 0x13] = .ok (.rspFrame 0x01 0x00 0x13 []) [] ∧
    decode Params.default .rsp [0x54, 0x02] = .error .truncated ∧ decode Params.default .pkt [0x81] = .error .truncated ∧
    (State.reset.setInputs [.trigger]).inputs = .trigger :: [] ∧
    (State.reset.setInputs [.start [0x04]]).inputs = .start [0x04] :: [] ∧
    (State.reset.setInputs [.startTrigger]).inputs = .startTrigger :: [] ∧ State.reset.inputs = [] := by decide

set_option maxRecDepth 4096 in
theorem witness_DecodeOfEncode : Params.default.opcodesDistinct ∧
    (Instr.cmd 0x13 longest 0xFF true).canonical Params.default = true ∧
    (Instr.cmd 0x13 longest 0xFF true).channel = some .host ∧
    (Instr.reqFrame 0x99 longest).canonical Params.default = true ∧ (Instr.reqFrame 0x99 longest).channel = some .wire ∧
    (Instr.rspFrame 0x01 0x00 0x13 []).canonical Params.default = true := by
  refine ⟨by decide, ?_, rfl, ?_, rfl, by decide⟩ <;>
    simp only [Instr.canonical, Instr.wellFormed, longest_length, Bool.and_eq_true, decide_eq_true_eq] <;> decide

theorem witness_EncodeOfDecode : decode Params.default .wire [0x55, 0x01, 0x13, 0xAA] = .ok .disableTouch [0xAA] := by decide

theorem witness_ReservedCodesChangeNothing : Instr.reservedF ∈
    [Instr.reserved0, .reservedA, .reservedB, .reservedC, .reservedD, .reservedE, .reservedF] := by decide

theorem witness_BusyEngineAcceptsNothing : sending.seq ≠ .idle ∧ Instr.read.channel = some .host ∧
    (sending.setInputs [.word .host [0x04]]).inputs = .word .host [0x04] :: [] ∧
    (sending.setInputs [.start [0x04]]).inputs = .start [0x04] :: [] := by decide

theorem witness_CalibrationRefusesOtherBusOperations :
    (calibration 0 [] [] []).seq = .idle ∧ (calibration 0 [] [] []).mode = .calibrating ∧
    (calibration 3 [] [] []).mode = .calibrating ∧ usesBus .regdump = true := by decide

theorem witness_OverlongRequestsAreRefused : (session [] [] []).seq = .idle ∧ (session [] [] []).mode ≠ .calibrating ∧
    254 < (0 :: longest).length ∧ 251 < (List.replicate 252 (0 : Byte)).length := by
  refine ⟨rfl, by decide, ?_, by rw [List.length_replicate]; decide⟩
  rw [List.length_cons, longest_length]; decide

theorem witness_WellFormedInstructionsComplete :
    State.reset.seq = .idle ∧ Instr.regdump.wellFormed = true ∧ State.reset.mode ≠ .calibrating ∧
    (calibration 0 [] [] []).seq = .idle ∧ (Instr.xchg 0x55).wellFormed = true ∧ usesBus (.xchg 0x55) = false ∧
    (calibration 0 [] [] []).cs = true := by decide

theorem witness_ExchangeConsumesOneByte : (calibration 0 [0xA7] [] []).cs = true ∧
    (calibration 0 [0xA7] [] []).env.rx = 0xA7 :: [] ∧ State.reset.cs = false := by decide

theorem witness_FinishReleasesUnlessOkAndHold :
    let s := session [0x55, 0x02, 0x00, 0x14] [true] [0]
    s.seq = .idle ∧ exec (.cmd 0x14 [0x04] 0 true) s = .next (after (exec (.cmd 0x14 [0x04] 0 true) s)) ∧
    exec (.waitresp 0 true) s = .next (after (exec (.waitresp 0 true) s)) :=
  ⟨rfl, next_after (by decide), next_after (by decide)⟩

theorem witness_CmdCompletesAndReleases : (session [] [] []).seq = .idle ∧ (session [] [] []).mode ≠ .calibrating ∧
    longest.length ≤ 254 := ⟨rfl, by decide, longest_length.le⟩

theorem witness_WaitrespCompletesAndReleases : (session [] [] []).seq = .idle ∧ (session [] [] []).mode ≠ .calibrating := by
  decide

/-- Every row of the parse, at the last round the timer allows (`k = n = 2`). -/
theorem witness_CmdParsesTheResponse :
    (session [] [false, false, true] [2]).seq = .idle ∧ (session [] [false, false, true] [2]).mode ≠ .calibrating ∧
    (session [] [false, false, true] [2]).env.counts = 2 :: [] ∧
    (session [] [false, false, true] [2]).env.sig = List.replicate 2 false ++ true :: [] ∧
    Parses 0x13 0 (0x54 :: [0x02]) (.err .noHeader) [0x02] ∧
    Parses 0x13 0 (0x55 :: 0x01 :: []) (.err .invalidLength) [] ∧
    Parses 0x13 0 (0x55 :: 0x02 :: 0xFC :: [0x13]) (.err (.chipStatus 0xFC)) [0x13] ∧
    Parses 0x13 0 (0x55 :: 0x02 :: 0x00 :: 0x12 :: []) (.err .invalidResponseOpcode) [] ∧
    Parses 0x13 0 (0x55 :: 0x03 :: 0x00 :: 0x13 :: [0xAA]) (.err .responseTooLarge) [0xAA] ∧
    Parses 0x10 3 (0x55 :: 0x05 :: 0x00 :: 0x10 :: ([0x01, 0x02, 0x03] ++ [])) (.ok [0x01, 0x02, 0x03]) [] :=
  ⟨rfl, by decide, rfl, rfl, .noHeader _ _ (by decide), .invalidLength _ _ (by decide),
    .chipStatus _ _ _ (by decide) (by decide), .invalidResponseOpcode _ _ _ (by decide) (by decide),
    .responseTooLarge _ _ (by decide) (by decide), .ok _ _ _ (by decide) (by decide)⟩

theorem witness_WaitrespParsesTheResponse :
    (session [0x55, 0x02, 0x00, 0x14] [true] [0]).seq = .idle ∧ (session [0x55, 0x02, 0x00, 0x14] [true] [0]).mode ≠ .calibrating ∧
    (session [0x55, 0x02, 0x00, 0x14] [true] [0]).env.counts = 0 :: [] ∧
    (session [0x55, 0x02, 0x00, 0x14] [true] [0]).env.sig = List.replicate 0 false ++ true :: [] ∧
    Parses Params.default.opCalibrateMode 0 (0x55 :: 0x02 :: 0x00 :: 0x14 :: ([] ++ [])) (.ok []) [] :=
  ⟨rfl, by decide, rfl, rfl, .ok _ _ _ (by decide) (by decide)⟩

/-- The timer expired at its first poll (`n = 0`), and at its second. -/
theorem witness_SilentChipGivesTimeout :
    (session [] [false] [0]).seq = .idle ∧ (session [] [false] [0]).mode ≠ .calibrating ∧
    (session [] [false] [0]).env.counts = 0 :: [] ∧ (session [] [false] [0]).env.sig = List.replicate (0 + 1) false ++ [] ∧
    (session [] [false, false] [1]).env.sig = List.replicate (1 + 1) false ++ [] := by decide

theorem witness_CmdTraceOnAnsweringChip :
    let c : Command := ⟨0x10, [], 1, false⟩
    let s := scripted (session [] [] []) [c.accepted Params.default [0x01]]
    s.seq = .idle ∧ s.mode ≠ .calibrating ∧ c.payload.length ≤ 254 ∧
    Answers s [c.accepted s.cfg [0x01]] [] [] ∧ s.env.echo = [0x00, 0x00, 0x00] ++ List.replicate 37 0x00 ∧
    [(0x00 : Byte), 0x00, 0x00].length = c.payload.length + 3 :=
  ⟨rfl, by decide, by decide,
    answers_scripted _ _ (by simpa using Command.accepted_valid _ ⟨0x10, [], 1, false⟩ [0x01] (by decide) (by decide)), rfl, rfl⟩

theorem witness_RequestFrameGoesOutAndWaits : (session [] [] []).seq = .idle ∧ (session [] [] []).mode ≠ .calibrating ∧
    longest.length ≤ 254 := ⟨rfl, by decide, longest_length.le⟩

theorem witness_ResponseFrameEndsTheWait :
    (waiting 0x13 0).seq = .wait ∧ (waiting 0x13 0).op = .cmd ∧
    Parses (waiting 0x13 0).t.expOp (waiting 0x13 0).t.cap (0x55 :: 0x02 :: 0x00 :: 0x13 :: ([] ++ [])) (.ok []) [] ∧
    ((waiting 0x13 0).setOp .init).seq = .wait ∧ ((waiting 0x13 0).setOp .init).op ≠ .decode ∧
    (session [] [] []).seq ≠ .wait ∧ ((waiting 0x13 0).setOp .decode).op = .decode :=
  ⟨rfl, rfl, .ok _ _ _ (by decide) (by decide), rfl, by decide, by decide, rfl⟩

/-- The last row of the list, and one with a payload, answered late; and one that is not answered. -/
theorem witness_WireCommandsAreTheirCmd :
    let late := [Command.turn Params.default ⟨0x23, [], 0, false⟩ 2 (responseFrame 0x23 []) (.ok [])]
    let never := [Command.turn Params.default ⟨0x21, [0x00, 0x22, 0x01, 0xC5], 0, false⟩ 1 [] (.err .timeout)]
    (scripted (session [] [] []) late).seq = .idle ∧ (scripted (session [] [] []) late).mode ≠ .calibrating ∧
    1 ≤ [(0xC5 : Byte)].length ∧ [(0xC5 : Byte)].length ≤ 251 ∧
    (Instr.eepromWrite, (0x23 : Byte), ([] : List Byte), (0 : Byte), false) ∈
      [(Instr.eepromWrite, Params.default.opEepromWrite, [], 0, false)] ∧
    (Instr.regWrite 0x22 [0xC5], (0x21 : Byte), [0x00, 0x22, 0x01, 0xC5], (0 : Byte), false) ∈
      [(Instr.regWrite 0x22 [0xC5], Params.default.opRegWrite, [0x00, 0x22, BitVec.ofNat 8 [(0xC5 : Byte)].length] ++ [0xC5], 0, false)] ∧
    Answers (scripted (session [] [] []) late) late [] [] ∧
    (scripted (session [] [] []) never).mode ≠ .calibrating ∧ Answers (scripted (session [] [] []) never) never [] [] :=
  ⟨rfl, by decide, by decide, by decide, by decide, by decide,
    answers_scripted _ _ (by simpa using .inr (.ok _ [] [] rfl (by decide))), by decide,
    answers_scripted _ _ (by simpa using .inl ⟨rfl, rfl⟩)⟩

theorem witness_WireCommandsCompleteOnAnyChip : (session [] [] []).seq = .idle ∧ (session [] [] []).mode ≠ .calibrating ∧
    (Instr.regWrite 0x22 [0xC5]).wellFormed = true ∧ (Instr.regWrite 0x22 [0xC5]).channel = some .wire ∧
    ∀ opcode payload, Instr.regWrite 0x22 [0xC5] ≠ .reqFrame opcode payload :=
  ⟨rfl, by decide, by decide, rfl, by simp⟩

theorem witness_ReadOffsetIsStored :
    let turns := [(cRegStart Params.default).accepted Params.default [0x20]]
    let late := [(cRegStart Params.default).turn Params.default 2 [0x54] (.err .noHeader)]
    let never := [silent (cRegStart Params.default)]
    (scripted (fresh [] [] []) turns).seq = .idle ∧ (scripted (fresh [] [] []) turns).mode ≠ .calibrating ∧
    Answers (scripted (fresh [] [] []) turns) turns [] [] ∧
    (scripted (fresh [] [] []) late).seq = .idle ∧ (scripted (fresh [] [] []) late).mode ≠ .calibrating ∧
    Answers (scripted (fresh [] [] []) late) late [] [] ∧
    (scripted (fresh [] [] []) never).seq = .idle ∧ (scripted (fresh [] [] []) never).mode ≠ .calibrating ∧
    Answers (scripted (fresh [] [] []) never) never [] [] :=
  ⟨rfl, by decide,
    answers_scripted _ _ (by simpa using Command.accepted_valid _ (cRegStart Params.default) [0x20] (by decide) (by decide)),
    rfl, by decide, answers_scripted _ _ (by simpa using .inr (.noHeader 0x54 [] (by decide))),
    rfl, by decide, answers_scripted _ _ (by simpa using silent_valid _)⟩

theorem witness_InitCompletes : State.reset.seq = .idle ∧ State.reset.mode ≠ .calibrating := by decide

theorem witness_InitOnAnsweringChip : (scripted (fresh [] [] []) initTurns).seq = .idle ∧
    (scripted (fresh [] [] []) initTurns).mode ≠ .calibrating ∧
    Answers (scripted (fresh [] [] []) initTurns) initTurns [] [] := ⟨rfl, by decide, answers_scripted _ _ initTurns_valid⟩

/-- Program P4's first commands, and vector VS3's four cancelled ones. -/
theorem witness_InitResendsAfterCancel :
    let resent := { cancelledTouch with retry := true }
    let once := [cancelledTouch, { (cDisableTouch Params.default).accepted Params.default [] with retry := true },
      (cRegStart Params.default).accepted Params.default [0x20], (cEnableTouch Params.default).accepted Params.default []]
    let always := [cancelledTouch, resent, cancelledTouch, resent]
    (scripted (fresh [] [] []) once).seq = .idle ∧ (scripted (fresh [] [] []) once).mode ≠ .calibrating ∧
    Answers (scripted (fresh [] [] []) once) once [] [] ∧ (scripted (fresh [] [] []) always).seq = .idle ∧
    (scripted (fresh [] [] []) always).mode ≠ .calibrating ∧ Answers (scripted (fresh [] [] []) always) always [] [] := by
  have h := initTurns_valid
  simp only [initTurns, List.forall_mem_cons] at h
  refine ⟨rfl, by decide, answers_scripted _ _ ?_, rfl, by decide, answers_scripted _ _ ?_⟩ <;>
    simp only [List.forall_mem_cons]
  · exact ⟨cancelledTouch_valid, h.1, h.2.1, h.2.2.1, by simp⟩
  · exact ⟨cancelledTouch_valid, cancelledTouch_valid, cancelledTouch_valid, cancelledTouch_valid, by simp⟩

/-- INIT: attempt 1 cancelled twice, attempt 2 silent at the offset query. CALSTART: attempt 1 silent, attempt 2 succeeds; and
attempt 1 silent after the offset is stored, attempt 2 silent at once. And each with a first attempt that succeeds. -/
theorem witness_AttemptsAreRetriedOnceFromTheTop :
    let disable := cDisableTouch Params.default
    let initFails := [cancelledTouch, { cancelledTouch with retry := true }] ++
      ([disable.accepted Params.default []] ++ [silent (cRegStart Params.default)])
    let calRetried := [silent disable] ++ calTurns
    let calFails := [disable.accepted Params.default [], (cRegStart Params.default).accepted Params.default [0x20],
      silent (insetWrite Params.default 0x20)] ++ [silent disable]
    AtMostTwo (InitAttemptRun Params.default) initFails false [] ∧
    Answers (scripted (fresh [] [] []) initFails) initFails [] [] ∧
    (scripted (fresh [] [] []) initFails).seq = .idle ∧ (scripted (fresh [] [] []) initFails).mode ≠ .calibrating ∧
    AtMostTwo (InitAttemptRun Params.default) initTurns true [[0x20]] ∧
    AtMostTwo (CalAttemptRun Params.default) calRetried true [[0x20]] ∧
    Answers (scripted (session [] [] []) calRetried) calRetried [] [] ∧
    (scripted (session [] [] []) calRetried).seq = .idle ∧ (scripted (session [] [] []) calRetried).initialized = true ∧
    AtMostTwo (CalAttemptRun Params.default) calTurns true [[0x20]] ∧
    AtMostTwo (CalAttemptRun Params.default) calFails false [[0x20]] ∧
    Answers (scripted (session [] [] []) calFails) calFails [] [] := by
  have hi := initTurns_valid
  have ok := DisableTouchRun.once (p := Params.default) 0 (responseFrame 0x13 []) (.ok []) (by decide)
  have cal := CalAttemptRun.mode (p := Params.default) 0 0 0 0 (responseFrame 0x13 []) (responseFrame 0x22 [0x20])
    (responseFrame 0x21 []) (responseFrame 0x14 []) 0x20 (.ok [])
  simp only [initTurns, List.forall_mem_cons] at hi
  refine ⟨.second _ _ _ [] [] (.disableFails _ (.resent 0 0 _ _ _)) (.offsetFails _ 1 [] .timeout ok), answers_scripted _ _ ?_, rfl,
    by decide, .first _ _ (.enable _ 0 0 (responseFrame 0x22 [0x20]) (responseFrame 0x12 []) [0x20] (.ok []) ok),
    .second _ _ _ [] [[0x20]] (.disableFails 1 [] .timeout) cal, answers_scripted _ _ ?_, rfl, rfl, .first _ _ cal,
    .second _ _ _ [[0x20]] [] (.writeFails 0 0 1 (responseFrame 0x13 []) (responseFrame 0x22 [0x20]) [] 0x20 .timeout)
      (.disableFails 1 [] .timeout), answers_scripted _ _ ?_⟩
  · simp only [List.cons_append, List.nil_append, List.forall_mem_cons]
    exact ⟨cancelledTouch_valid, cancelledTouch_valid, hi.1, silent_valid _, by simp⟩
  · simp only [List.cons_append, List.nil_append, List.forall_mem_cons]
    exact ⟨silent_valid _, calTurns_valid⟩
  · simp only [List.cons_append, List.nil_append, List.forall_mem_cons]
    exact ⟨hi.1, hi.2.1, silent_valid _, silent_valid _, by simp⟩

/-- Without a session; with one, a late answer and a silent chip, to an address that wraps. -/
theorem witness_SetregWritesOneRegister :
    let write := Command.turn Params.default ⟨0x21, [0x00, 0xF0 + 0x20, 0x01, 0xC5], 0, false⟩
    let late := [write 2 (responseFrame 0x21 []) (.ok [])]
    let never := [write 1 [] (.err .timeout)]
    let ready := (session [] [] []).setOffset 0x20
    (fresh [] [] []).seq = .idle ∧ (fresh [] [] []).initialized = false ∧
    (scripted ready late).seq = .idle ∧ (scripted ready late).mode = .ready ∧ (scripted ready late).offset = 0x20 ∧
    Answers (scripted ready late) late [] [] ∧
    (scripted ready never).mode = .ready ∧ Answers (scripted ready never) never [] [] :=
  ⟨rfl, rfl, rfl, by decide, rfl, answers_scripted _ _ (by simpa using .inr (.ok _ [] [] rfl (by decide))), by decide,
    answers_scripted _ _ (by simpa using .inl ⟨rfl, rfl⟩)⟩

/-- A session is ready with a finished calibration (index 4) and with none (index 5). -/
theorem witness_SetregCompletes : (session [] [] []).seq = .idle ∧ (session [] [] []).mode = .ready ∧
    ((session [] [] []).setPointIndex 4).mode = .ready := by decide

theorem witness_RegdumpKeepsDriverState : State.reset.seq = .idle ∧ State.reset.initialized = false ∧
    (session [] [] []).seq = .idle ∧ (session [] [] []).mode = .ready := by decide

/-- Vector VS12: the second register is silent. -/
theorem witness_RegdumpReadsEachRegister :
    let answers : List (Nat × List Byte × Reply) := [(0, responseFrame 0x20 [0xC5], .ok [0xC5]), (1, [], .err .timeout),
      (0, responseFrame 0x20 [0x00], .ok [0x00]), (0, responseFrame 0x20 [0x19], .ok [0x19])]
    let turns := (cGetVersion Params.default).turn Params.default 0 (responseFrame 0x10 [0x01, 0x21, 0x15]) (.ok [0x01, 0x21, 0x15]) ::
      (Params.default.dumpRegs.zip answers).map (fun x =>
        Command.turn Params.default ⟨0x20, [0x00, x.1 + 0x20, 0x01], 1, false⟩ x.2.1 x.2.2.1 x.2.2.2)
    (scripted (session [] [] []) turns).seq = .idle ∧ (scripted (session [] [] []) turns).mode = .ready ∧
    (scripted (session [] [] []) turns).offset = 0x20 ∧ answers.length = Params.default.dumpRegs.length ∧
    Answers (scripted (session [] [] []) turns) turns [] [] := by
  refine ⟨rfl, by decide, rfl, rfl, answers_scripted _ _ ?_⟩
  simp only [Params.default, List.zip_cons_cons, List.zip_nil_left, List.map_cons, List.map_nil, List.forall_mem_cons]
  exact ⟨Command.accepted_valid _ (cGetVersion Params.default) [0x01, 0x21, 0x15] (by decide) (by decide),
    .inr (.ok _ [0xC5] [] rfl (by decide)), .inl ⟨rfl, rfl⟩, .inr (.ok _ [0x00] [] rfl (by decide)),
    .inr (.ok _ [0x19] [] rfl (by decide)), by simp⟩

theorem witness_CalstartTransitions : (session [] [] []).seq = .idle ∧ (session [] [] []).initialized = true ∧
    State.reset.seq = .idle ∧ State.reset.initialized = false := by decide

/-- Each clause at the ends of its range of indexes, and each way a CALWAIT can end (vectors VC17 to VC21). -/
theorem witness_CalwaitTransitions :
    let p := Params.default
    let ack := acknowledged p 5000
    let silence := waitTurn p 5000 true 1 [] (.err .timeout)
    let commitFails := [ack 0, silence]
    let enableFails := [ack 1, ack 0, (cEnableTouch p).turn p 0 [0x55, 0x02, 0x01] (.err (.chipStatus 0x01))]
    let done := [ack 0, ack 2, (cEnableTouch p).turn p 1 (responseFrame 0x12 []) (.ok [])]
    (calibration 0 [] [] []).seq = .idle ∧ (calibration 0 [] [] []).pointIndex.toNat < 3 ∧
    (calibration 2 [] [] []).pointIndex.toNat < 3 ∧ (calibration 3 [] [] []).pointIndex = 3 ∧
    3 < (calibration 4 [] [] []).pointIndex.toNat ∧ 3 < (calibration 7 [] [] []).pointIndex.toNat ∧
    CalwaitRun p 5000 1 [silence] none ∧ Answers (scripted (calibration 1 [] [] []) [silence]) [silence] [] [] ∧
    CalwaitRun p 5000 3 [silence] none ∧ Answers (scripted (calibration 3 [] [] []) [silence]) [silence] [] [] ∧
    CalwaitRun p 5000 0 [ack 0] (some true) ∧ Answers (scripted (calibration 0 [] [] []) [ack 0]) [ack 0] [] [] ∧
    CalwaitRun p 5000 2 [ack 3] (some true) ∧ Answers (scripted (calibration 2 [] [] []) [ack 3]) [ack 3] [] [] ∧
    CalwaitRun p 5000 3 commitFails none ∧ Answers (scripted (calibration 3 [] [] []) commitFails) commitFails [] [] ∧
    CalwaitRun p 5000 3 enableFails none ∧ Answers (scripted (calibration 3 [] [] []) enableFails) enableFails [] [] ∧
    CalwaitRun p 5000 3 done (some false) ∧ Answers (scripted (calibration 3 [] [] []) done) done [] [] := by
  intro p ack silence commitFails enableFails done
  have hack (n : Nat) : (ack n).Valid := acknowledged_valid _ _ _
  have hsilence : silence.Valid := .inl ⟨rfl, rfl⟩
  refine ⟨rfl, by decide, by decide, rfl, by decide, by decide, .pointFails .., answers_scripted _ _ ?_, .pointFails ..,
    answers_scripted _ _ ?_, .morePoints _ (by decide), answers_scripted _ _ ?_, .morePoints _ (by decide), answers_scripted _ _ ?_,
    .commitFails _ _ _ _ rfl, answers_scripted _ _ ?_, .enableFails _ _ _ _ _ rfl, answers_scripted _ _ ?_,
    .finished _ _ _ _ rfl, answers_scripted _ _ ?_⟩
  all_goals simp only [commitFails, enableFails, done, List.forall_mem_cons]
  · exact ⟨hsilence, by simp⟩
  · exact ⟨hsilence, by simp⟩
  · exact ⟨hack _, by simp⟩
  · exact ⟨hack _, by simp⟩
  · exact ⟨hack _, hsilence, by simp⟩
  · exact ⟨hack _, hack _, .inr (.chipStatus _ _ _ (by decide) (by decide)), by simp⟩
  · exact ⟨hack _, hack _, .inr (.ok _ [] [] rfl (by decide)), by simp⟩

theorem witness_CalstartOnAnsweringChip : (scripted (session [] [] []) calTurns).seq = .idle ∧
    (scripted (session [] [] []) calTurns).initialized = true ∧
    calTurns = [(cDisableTouch Params.default).accepted Params.default [], (cRegStart Params.default).accepted Params.default [0x20],
      Command.accepted Params.default ⟨0x21, [0x00, 0x2E, 0x01, 0x19], 0, false⟩ [],
      Command.accepted Params.default ⟨0x14, [0x04], 0, true⟩ []] ∧
    Answers (scripted (session [] [] []) calTurns) calTurns [] [] := ⟨rfl, rfl, rfl, answers_scripted _ _ calTurns_valid⟩

/-- Program P3 with late acknowledgements. -/
theorem witness_FourCalwaitsCompleteACalibration :
    let ack := acknowledged Params.default 5000
    let turns := [ack 0, ack 1, ack 2, ack 0, ack 3, (cEnableTouch Params.default).turn Params.default 1 (responseFrame 0x12 []) (.ok [])]
    (scripted (calibration 0 [] [] []) turns).seq = .idle ∧ (scripted (calibration 0 [] [] []) turns).pointIndex = 0 ∧
    Answers (scripted (calibration 0 [] [] []) turns) turns [] [] := by
  intro ack turns
  refine ⟨rfl, rfl, answers_scripted _ _ ?_⟩
  have hack (n : Nat) : (ack n).Valid := acknowledged_valid _ _ _
  simp only [turns, List.forall_mem_cons]
  exact ⟨hack _, hack _, hack _, hack _, hack _, .inr (.ok _ [] [] rfl (by decide)), by simp⟩

/-- Every clause of the index, at its ends, with the margins of VC1. -/
theorem witness_CalpointGivesTheCorner : (calibration 0 [] [] []).seq = .idle ∧
    20 = (calibration 0 [] [] []).width.toNat * (calibration 0 [] [] []).cfg.inset.toNat / 400 ∧
    15 = (calibration 0 [] [] []).height.toNat * (calibration 0 [] [] []).cfg.inset.toNat / 400 ∧
    (calibration 0 [] [] []).pointIndex = 0 ∧ (calibration 1 [] [] []).pointIndex = 1 ∧
    (calibration 2 [] [] []).pointIndex = 2 ∧ (calibration 3 [] [] []).pointIndex = 3 ∧
    3 < (calibration 4 [] [] []).pointIndex.toNat ∧ 3 < (calibration 7 [] [] []).pointIndex.toNat := by decide

theorem witness_CornersFitInt16 : (32767 : Half).toNat ≤ 32767 ∧ corner 2 32767 32767 0 = some (32767, 32767) ∧
    corner 1 32767 32767 255 = some (11879, 20888) := by decide

theorem witness_PacketsStoreTheScaledCoordinate : (session [] [] []).decodeEnabled = true ∧
    (78 : Half) = BitVec.ofNat 16 (((0x07 % 128) * 128 + 0x68 % 128) * (session [] [] []).width.toNat / 4096) ∧
    (175 : Half) = BitVec.ofNat 16 (((0x17 % 128) * 128 + 0x38 % 128) * (session [] [] []).height.toNat / 4096) := by decide

/-- The three classes of the pen byte. -/
theorem witness_DecodePacketWritesCurrent : (0xFF : Byte) &&& 0x81 = 0x81 ∧ (0x80 : Byte) &&& 0x81 = 0x80 ∧
    (0x7F : Byte) &&& 0x81 ≠ 0x81 ∧ (0x7F : Byte) &&& 0x81 ≠ 0x80 ∧
    (78 : Half) = BitVec.ofNat 16 (((0x07 % 128) * 128 + 0x68 % 128) * (session [] [] []).width.toNat / 4096) ∧
    (175 : Half) = BitVec.ofNat 16 (((0x17 % 128) * 128 + 0x38 % 128) * (session [] [] []).height.toNat / 4096) := by decide

theorem witness_MaskedPacketsWaitInTheChip : State.reset.decodeEnabled = false ∧ (calibration 3 [] [] []).decodeEnabled = false ∧
    sending.decodeEnabled = false ∧ (Instr.pktPenDown 0 0 0 0 0).channel = some .pkt := by decide

/-- No packet with the timer at once expired, two packets with the timer at its bound, and both where the line stays active. -/
theorem witness_DecodeKeepsTheLastValidPacket :
    let two : List (List Byte) := [[0x81, 0x00, 0x10, 0x00, 0x10], [0x81, 0x68, 0x07, 0x38, 0x17]]
    (session [] [false] [0]).decodeEnabled = true ∧ (session [] [false] [0]).env.counts = 0 :: [] ∧
    (session [] [false] [0]).env.sig = List.replicate 0 true ++ [false] ++ [] ∧
    (session [] [true] [0]).env.sig = List.replicate 0 true ++ [true] ++ [] ∧
    (session two.flatten [true, true, false] [2]).decodeEnabled = true ∧ (∀ p ∈ two, p.length = 5) ∧ two.length ≤ 2 ∧
    (session two.flatten [true, true, false] [2]).env.counts = 2 :: [] ∧
    (session two.flatten [true, true, false] [2]).env.sig = List.replicate two.length true ++ [false] ++ [] ∧
    (session two.flatten [true, true, true] [2]).env.sig = List.replicate two.length true ++ [true] ++ [] ∧
    (session two.flatten [true, true, false] [2]).env.rx = two.flatten ++ [] := by decide

theorem witness_DecodeCompletes : (session [] [] []).decodeEnabled = true ∧
    ((session [] [] []).setPointIndex 4).decodeEnabled = true := by decide

theorem witness_ScalingReachesTheDimension : 1 ≤ (1 : Half).toNat ∧ (4096 : Half).toNat ≤ 4096 ∧ scale 4095 1 = 0 ∧
    scale 4095 4096 = 4095 := by decide

theorem witness_CoordinatesFitInt16 : (8191 : Half).toNat ≤ 8191 := by decide

theorem witness_RotationExchangesTheAxes :
    packetCoord 320 240 false true 0x68 0x07 0x38 0x17 = ⟨78, 175, true⟩ := by decide

theorem witness_ReadReportsChanges : State.reset.seq = .idle ∧ State.reset.initialized = false ∧
    (session [] [] []).initialized = true ∧ (session [] [] []).current = (session [] [] []).lastReported ∧
    ((session [] [] []).setCurrent ⟨0, 0, true⟩).current ≠ ((session [] [] []).setCurrent ⟨0, 0, true⟩).lastReported := by decide

theorem witness_SecondReadHasNothingNew :
    let s := (session [] [] []).setCurrent ⟨0, 0, true⟩
    s.seq = .idle ∧ exec .read s = .next (after (exec .read s)) ∧ (after (exec .read s)).res = .coord ⟨0, 0, true⟩ :=
  ⟨rfl, next_after (by decide), rfl⟩

/-- READ changes one register. -/
theorem witness_EachRegisterHasItsWriters :
    let s := (session [] [] []).setCurrent ⟨0, 0, true⟩
    s.seq = .idle ∧ exec .read s = .next (after (exec .read s)) ∧ (after (exec .read s)).lastReported ≠ s.lastReported :=
  ⟨rfl, next_after (by decide), by decide⟩

theorem witness_ParametersAreConstant : step State.reset = .next State.reset := rfl

/-- The invariant holds in a state that will take a host operation, and in one inside a request, and the step answers. -/
theorem witness_EveryStepKeepsTheInvariant : Inv (State.reset.setInputs [.start [0x07, 0x00, 0x00]]) ∧
    step (State.reset.setInputs [.start [0x07, 0x00, 0x00]]) =
      .next (after (step (State.reset.setInputs [.start [0x07, 0x00, 0x00]]))) ∧
    Inv { sending with trace := [.sel] } ∧
    step { sending with trace := [.sel] } = .next (seqStep { sending with trace := [.sel] }) :=
  ⟨⟨⟨rfl, rfl, rfl, by decide, by intro k h; cases h⟩, by decide, (by intro k h; cases h),
    ⟨by decide, by decide, by decide, by decide, by decide, by decide, by decide⟩⟩, next_after (by decide),
   ⟨⟨rfl, rfl, rfl, by decide, by intro k h; cases h⟩, by decide, (by intro k h; cases h; rfl),
    ⟨by decide, by decide, by decide, by decide, by decide, by decide, by decide⟩⟩, rfl⟩

/-- Each operation of the statement, failing; each way to end with chip-select asserted; and a run that starts a calibration, and
one whose last operation asked to hold (vector VF15). -/
theorem witness_ChipSelectIsReleasedUnlessHeld :
    (after (exec (.cmd 0x13 [] 0 true) (session [0x54] [true] [0]))).res = .err .noHeader ∧
    (after (exec (.waitresp 0 true) (session [0x54] [true] [0]))).res = .err .noHeader ∧
    (after (exec (.setreg 0 0) (session [0x54] [true] [0]))).res = .err .noHeader ∧
    (after (exec (.init 1 1 false) (fresh [0x54, 0x54] [true, true] [0, 0]))).res = .bool false ∧
    (after (exec .calstart (session [0x54, 0x54] [true, true] [0, 0]))).res = .bool false ∧
    (after (exec (.calwait 0) (session [] [] []))).res = .none ∧
    (after (exec .calstart (scripted (session [] [] []) calTurns))).cs = true ∧
    (after (exec (.calwait 5000) (calibration 0 [0x55, 0x02, 0x00, 0x14] [true] [0]))).cs = true ∧
    (after (exec (.cmd 0x14 [0x04] 0 true) (session [0x55, 0x02, 0x00, 0x14] [true] [0]))).cs = true ∧
    (after (exec .read (calibration 0 [] [] []))).cs = true ∧
    (session [] [] []).cs = false ∧ (session [] [] []).active = false ∧ (session [] [] []).seq = .idle ∧
    Run [.calstart] (scripted (session [] [] []) calTurns) (after (exec .calstart (scripted (session [] [] []) calTurns))) ∧
    (after (exec .calstart (scripted (session [] [] []) calTurns))).active = true ∧
    Run [.cmd 0x14 [0x04] 0 true] (session [0x55, 0x02, 0x00, 0x14] [true] [0])
      (after (exec (.cmd 0x14 [0x04] 0 true) (session [0x55, 0x02, 0x00, 0x14] [true] [0]))) :=
  ⟨by decide, by decide, by decide, by decide, by decide, by decide, by decide, by decide, by decide, by decide, rfl, by decide, rfl,
    .cons _ _ _ _ _ (.inl rfl) (next_after (by decide)) (.nil _), by decide,
    .cons _ _ _ _ _ (.inl rfl) (next_after (by decide)) (.nil _)⟩

theorem witness_ExternalResetAtAnyTime : (sending.setInputs [.reset, .trigger]).inputs = .reset :: [.trigger] := rfl

/-- Each result a state can hold, and an operation of each kind that ends with one of its results. -/
theorem witness_ResultRegistersShowTheResult : (State.reset.setRes (.err .noHeader)).res = .err .noHeader ∧
    (State.reset.setRes (.err .invalidLength)).res = .err .invalidLength ∧
    (State.reset.setRes (.err .invalidResponseOpcode)).res = .err .invalidResponseOpcode ∧
    (State.reset.setRes (.err .responseTooLarge)).res = .err .responseTooLarge ∧
    (State.reset.setRes (.err .timeout)).res = .err .timeout ∧
    (State.reset.setRes (.err (.chipStatus 0xFC))).res = .err (.chipStatus 0xFC) ∧
    (after (exec (.cmd 0x10 [] 3 false) (session [0x55, 0x05, 0x00, 0x10, 0x01, 0x21, 0x15] [true] [0]))).resLen = 3 ∧
    (after (exec (.waitresp 0 true) (session [0x55, 0x02, 0x00, 0x14] [true] [0]))).res = .payload [] ∧
    (after (exec .regStart (session [0x55, 0x03, 0x00, 0x22, 0x20] [true] [0]))).resLen = 1 ∧
    (after (exec (.setreg 0 0) (session [0x55, 0x02, 0x00, 0x21] [true] [0]))).res.tag = .ok ∧
    (after (exec .calstart (fresh [] [] []))).res.tag = .false ∧ (after (exec .read (fresh [] [] []))).res.tag = .notReady ∧
    (after (exec .calpoint (calibration 0 [] [] []))).res.tag = .point ∧
    (after (exec (.calwait 0) (fresh [] [] []))).res.tag = .none := by decide

theorem witness_SequencerRunsTheFramingOperations : Idle (session [0x54] [true] [0]) ∧
    exec (.cmd 0x13 [] 0 true) (session [0x54] [true] [0]) =
      .next (after (exec (.cmd 0x13 [] 0 true) (session [0x54] [true] [0]))) := ⟨⟨rfl, rfl⟩, next_after (by decide)⟩

theorem witness_SequencerRunsTheSessionOperations : Idle (session [0x54] [true] [0]) ∧
    exec (.setreg 0 0) (session [0x54] [true] [0]) = .next (after (exec (.setreg 0 0) (session [0x54] [true] [0]))) ∧
    exec (.init 1 1 false) (session [0x54, 0x54] [true, true] [0, 0]) =
      .next (after (exec (.init 1 1 false) (session [0x54, 0x54] [true, true] [0, 0]))) ∧
    exec .regdump (session [] [] []) = .next (after (exec .regdump (session [] [] []))) :=
  ⟨⟨rfl, rfl⟩, next_after (by decide), next_after (by decide), next_after (by decide)⟩

theorem witness_SequencerRunsTheCalibration : Idle (calibration 0 [0x54] [true] [0]) ∧
    exec (.calwait 0) (calibration 0 [0x54] [true] [0]) =
      .next (after (exec (.calwait 0) (calibration 0 [0x54] [true] [0]))) ∧
    Idle (session [0x54, 0x54] [true, true] [0, 0]) ∧
    exec .calstart (session [0x54, 0x54] [true, true] [0, 0]) =
      .next (after (exec .calstart (session [0x54, 0x54] [true, true] [0, 0]))) :=
  ⟨⟨rfl, rfl⟩, next_after (by decide), ⟨rfl, rfl⟩, next_after (by decide)⟩

theorem witness_SequencerRunsDecode : Idle (session [] [false] [0]) ∧
    exec .decode (session [] [false] [0]) = .next (after (exec .decode (session [] [false] [0]))) :=
  ⟨⟨rfl, rfl⟩, next_after (by decide)⟩

end Sys2Proof.Tests
end

section
/-! PROOFS. The transport micro-operations (40_transport). -/

namespace Sys2Proof.Machine

/-! ## `Select` and `Unselect` as record updates -/

/-- `Select()` (R130) in full: the two fields it writes, and so, by the update, all that it leaves. -/
theorem select_eq (s : State) : select s = { s with cs := true, trace := .sel :: s.trace } := rfl

/-- `Unselect()` (R131) in full. -/
theorem unselect_eq (s : State) : unselect s = { s with cs := false, trace := .unsel :: s.trace } := rfl

theorem exec_select (s : State) : exec .select s = .next (select s) := rfl

theorem exec_unselect (s : State) : exec .unselect s = .next (unselect s) := rfl

/-- Settles O11: neither instruction has a channel, and each runs its micro-operation, whose update does not look at the level. -/
theorem selectAndUnselectWriteTheLevel : Obligations.SelectAndUnselectWriteTheLevel := by
  refine ⟨rfl, rfl, fun s => ⟨?_, ?_⟩⟩
  · rw [exec_select, select_eq]
  · rw [exec_unselect, unselect_eq]

end Sys2Proof.Machine
end

section
/-! PROOFS. Completion of the framing operations (41_framing). -/

namespace Sys2Proof.Machine

/-! ## `Finish` case by case -/

/-- `Finish` on a success (R147): nothing is dropped, and `hold` decides about chip-select. -/
theorem finish_ok (hold : Bool) (p : List Byte) (s : State) :
    finish hold (.ok p, s) = (.ok p, (if hold then s else unselect s).setRes (.payload p)) := rfl

/-- `Finish` on an error, which is error entry (R256): `hold` is not looked at. -/
theorem finish_err (hold : Bool) (e : ProtocolError) (s : State) :
    finish hold (.err e, s) = (.err e, (unselect (dropResp s)).setRes (.err e)) := rfl

/-! ## Results and the return to the host -/

/-- The result of a reply carries a payload exactly when the reply is no error. -/
theorem ofReply_payload_iff (r : Reply) : (∃ p, Result.ofReply r = .payload p) ↔ r.isErr = false := by
  cases r with
  | ok p => exact ⟨fun _ => rfl, fun _ => ⟨p, rfl⟩⟩
  | err e => exact ⟨nofun, nofun⟩

@[simp] theorem ret_cs (op : OpName) (r : Result) (s : State) : (ret op r s).cs = s.cs := rfl

@[simp] theorem ret_res (op : OpName) (r : Result) (s : State) : (ret op r s).res = r := rfl

/-- Returning a reply to the host keeps R147's level: chip-select is asserted exactly on a payload with `hold`. -/
theorem ret_cs_iff {op : OpName} {r : Reply} {hold : Bool} {s : State} (hcs : s.cs = (!r.isErr && hold)) :
    (ret op (Result.ofReply r) s).cs = true ↔
      (∃ p, (ret op (Result.ofReply r) s).res = .payload p) ∧ hold = true := by
  rw [ret_cs, ret_res, ofReply_payload_iff, hcs, Bool.and_eq_true, Bool.not_eq_true']

/-! ## What the host's operations answer -/

/-- An idle engine that answers a next state for a bus operation has run it (R300, R301). -/
theorem run_eq_next_of_hostBus {s t : State} {run : Host.Outcome State Fault Refusal} (hidle : s.seq = .idle)
    (h : hostBus s run = .next t) : run = .next t := by
  have hbusy : s.busy = false := by simp [State.busy, hidle]
  unfold hostBus whenIdle at h
  rw [hbusy, if_neg Bool.false_ne_true] at h
  split at h
  · cases h
  · exact h

/-- CMD's next state from an idle engine is the host's CMD: the payload was not refused (R93, R140). -/
theorem exec_cmd_next {s t : State} {opcode cap : Byte} {payload : List Byte} {hold : Bool} (hidle : s.seq = .idle)
    (h : exec (.cmd opcode payload cap hold) s = .next t) : t = hostCmd opcode payload cap hold s := by
  have hrun := run_eq_next_of_hostBus hidle h
  split at hrun
  · cases hrun
  · exact (Host.Outcome.next.inj hrun).symm

/-- WAITRESP's next state from an idle engine is the engine's WAITRESP, returned to the host (R150, R257). -/
theorem exec_waitresp_next {s t : State} {tmo : Half} {hold : Bool} (hidle : s.seq = .idle)
    (h : exec (.waitresp tmo hold) s = .next t) :
    t = ret .waitresp (Result.ofReply (waitResp tmo hold s).1) (waitResp tmo hold s).2 :=
  (Host.Outcome.next.inj (run_eq_next_of_hostBus hidle h)).symm

/-- Settles O13: `Finish` case by case, and for CMD and WAITRESP the level that the operation leaves, which the return keeps. -/
theorem finishReleasesUnlessOkAndHold : Obligations.FinishReleasesUnlessOkAndHold := by
  refine ⟨fun hold p s => ?_, fun hold e s => ?_, ?_, ?_⟩
  · rw [finish_ok]
    cases hold <;> rfl
  · exact ⟨_, _, finish_err hold e s⟩
  · intro s t opcode cap payload hold hidle h
    rw [exec_cmd_next hidle h]
    exact ret_cs_iff (cmd_cs opcode payload cap hold s)
  · intro s t tmo hold hidle h
    rw [exec_waitresp_next hidle h]
    exact ret_cs_iff (waitResp_cs tmo hold s)

end Sys2Proof.Machine
end

section
/-! PROOFS. The calibration sequencer (44_calibration). -/

namespace Sys2Proof.Machine

/-! ## An operation of an idle engine -/

/-- An idle engine runs what it is presented (R300). -/
theorem whenIdle_of_idle {s : State} (hidle : s.seq = .idle) (run : Host.Outcome State Fault Refusal) :
    whenIdle s run = run :=
  if_neg (by simp [State.busy, hidle])

/-- The return of an idle engine in full (R257): `S.seq` already has the value it is given. -/
theorem ret_of_idle {s : State} (hidle : s.seq = .idle) (op : OpName) (r : Result) :
    ret op r s = { s with res := r, op := .none, trace := .ret op (some r) :: s.trace } := by
  cases s
  cases hidle
  rfl

/-! ## CALPOINT -/

/-- CALPOINT in an idle engine: it runs no shared operation but the return. -/
theorem exec_calpoint_of_idle {s : State} (hidle : s.seq = .idle) :
    exec .calpoint s =
      .next { s with res := calPoint s, op := .none, trace := .ret .calpoint (some (calPoint s)) :: s.trace } := by
  rw [← ret_of_idle hidle]
  exact whenIdle_of_idle hidle _

/-- CALPOINT reports the corner, where there is one. -/
theorem calPoint_of_corner_some {s : State} {x y : Half}
    (h : corner s.pointIndex s.width s.height s.cfg.inset = some (x, y)) : calPoint s = .point x y := by
  rw [calPoint, h]

theorem calPoint_of_corner_none {s : State} (h : corner s.pointIndex s.width s.height s.cfg.inset = none) :
    calPoint s = .none := by
  rw [calPoint, h]

/-- Only the indexes 0 to 3 have a corner (R216). -/
theorem corner_of_three_lt {i : BitVec 3} (hi : 3 < i.toNat) (width height : Half) (inset : Byte) :
    corner i width height inset = none := by
  unfold corner
  split
  case h_5 => rfl
  all_goals omega

/-- Settles O37: the return is all that CALPOINT does, and its result is read off `corner`, index by index. -/
theorem calpointGivesTheCorner : Obligations.CalpointGivesTheCorner := by
  rintro s hidle _ _ rfl rfl
  refine ⟨calPoint s, exec_calpoint_of_idle hidle, fun h => ?_, fun h => ?_, fun h => ?_, fun h => ?_, fun h => ?_⟩
  case refine_5 => exact calPoint_of_corner_none (corner_of_three_lt h _ _ _)
  all_goals
    apply calPoint_of_corner_some
    rw [h]
    rfl

end Sys2Proof.Machine
end

section
/-! PROOFS. The touch decoder: what a packet stores and what READ reports (45_touch). -/

namespace Sys2Proof.Machine

/-! ## The arithmetic of a packet -/

/-- The mask of a raw axis byte drops bit 7 (R97). -/
theorem toNat_and_0x7F (b : Byte) : (b &&& 0x7F).toNat = b.toNat % 128 :=
  (BitVec.toNat_and b 0x7F).trans (Nat.and_two_pow_sub_one_eq_mod b.toNat 7)

/-- A raw axis value is two 7-bit digits, the high byte's first (R97). -/
theorem rawAxis_eq (lo hi : Byte) : rawAxis lo hi = hi.toNat % 128 * 128 + lo.toNat % 128 := by
  have hlo : lo.toNat % 128 < 2 ^ 7 := Nat.mod_lt _ (by decide)
  rw [rawAxis, toNat_and_0x7F, toNat_and_0x7F, ← Nat.shiftLeft_add_eq_or_of_lt hlo, Nat.shiftLeft_eq]

/-- The shift of the scaling is the division by 4096 (R235). -/
theorem scale_eq_div (raw : Nat) (dim : Half) : scale raw dim = raw * dim.toNat / 4096 :=
  Nat.shiftRight_eq_div_pow _ _

/-- The coordinate of a packet, from its two scaled axes (R236, R237). -/
theorem packetCoord_of_scaled {width height sx sy : Half} {xlo xhi ylo yhi : Byte}
    (hx : sx = BitVec.ofNat 16 ((xhi.toNat % 128 * 128 + xlo.toNat % 128) * width.toNat / 4096))
    (hy : sy = BitVec.ofNat 16 ((yhi.toNat % 128 * 128 + ylo.toNat % 128) * height.toNat / 4096)) (rotated touched : Bool) :
    packetCoord width height rotated touched xlo xhi ylo yhi =
      ⟨if rotated then sy else sx, if rotated then sx else sy, touched⟩ := by
  rw [← rawAxis_eq, ← scale_eq_div] at hx hy
  subst hx hy
  cases rotated <;> rfl

/-! ## The pen byte's three classes -/

theorem penState_of_down {pen : Byte} (h : pen &&& 0x81 = 0x81) : penState pen = some true := if_pos h

theorem penState_of_up {pen : Byte} (h : pen &&& 0x81 = 0x80) : penState pen = some false := by
  have hdown : pen &&& Config.penMask ≠ 0x81 := fun h' => absurd (h.symm.trans h') (by decide)
  exact (if_neg hdown).trans (if_pos h)

theorem penState_of_invalid {pen : Byte} (hdown : pen &&& 0x81 ≠ 0x81) (hup : pen &&& 0x81 ≠ 0x80) : penState pen = none :=
  (if_neg hdown).trans (if_neg hup)

/-! ## DecodePacket -/

theorem decodePacket_of_penState_some {pen : Byte} {touched : Bool} (h : penState pen = some touched) (xlo xhi ylo yhi : Byte)
    (s : State) : decodePacket [pen, xlo, xhi, ylo, yhi] s =
      s.setCurrent (packetCoord s.width s.height s.rotated touched xlo xhi ylo yhi) := by
  rw [decodePacket, h]

theorem decodePacket_of_penState_none {pen : Byte} (h : penState pen = none) (xlo xhi ylo yhi : Byte) (s : State) :
    decodePacket [pen, xlo, xhi, ylo, yhi] s = s := by
  rw [decodePacket, h]

/-- Settles O40: the pen byte decides between a write of the packet's coordinate and no write; the coordinate is the two scaled
axes. -/
theorem decodePacketWritesCurrent : Obligations.DecodePacketWritesCurrent := by
  intro s pen xlo xhi ylo yhi sx sy hx hy
  refine ⟨fun hdown => ?_, fun hup => ?_, fun hdown hup => ?_⟩
  · rw [decodePacket_of_penState_some (penState_of_down hdown), packetCoord_of_scaled hx hy, State.setCurrent]
  · rw [decodePacket_of_penState_some (penState_of_up hup), packetCoord_of_scaled hx hy, State.setCurrent]
  · exact decodePacket_of_penState_none (penState_of_invalid hdown hup) xlo xhi ylo yhi s

/-! ## READ -/

/-- The comparison of R240 is equality of coordinates. -/
theorem Coord.same_iff_eq (a b : Coord) : a.same b = true ↔ a = b := by
  cases a
  cases b
  simp [Coord.same, and_assoc]

theorem readTouch_of_uninitialized {s : State} (h : s.initialized = false) : readTouch s = (.notReady, s) := by
  rw [readTouch, h, if_neg Bool.false_ne_true]

theorem readTouch_of_same {s : State} (hinit : s.initialized = true) (h : s.current = s.lastReported) :
    readTouch s = (.noNew, s) := by
  rw [readTouch, if_pos hinit, if_pos ((Coord.same_iff_eq _ _).mpr h)]

theorem readTouch_of_new {s : State} (hinit : s.initialized = true) (h : s.current ≠ s.lastReported) :
    readTouch s = (.coord s.current, s.setLastReported s.current) := by
  rw [readTouch, if_pos hinit, if_neg (mt (Coord.same_iff_eq _ _).mp h)]

/-- READ in an idle engine returns what `readTouch` answers, and runs no other shared operation. -/
theorem exec_read_of_readTouch {s t : State} {r : Result} (hidle : s.seq = .idle) (h : readTouch s = (r, t)) :
    exec .read s = .next (ret .read r t) := by
  have hrun : exec .read s = .next (ret .read (readTouch s).1 (readTouch s).2) := whenIdle_of_idle hidle _
  rw [hrun, h]

/-- Settles O48: the return is all that READ does besides `readTouch`, which has the three cases. -/
theorem readReportsChanges : Obligations.ReadReportsChanges := by
  intro s hidle
  refine ⟨fun hinit => ?_, fun hinit hsame => ?_, fun hinit hnew => ?_⟩
  · rw [exec_read_of_readTouch hidle (readTouch_of_uninitialized hinit), ret_of_idle hidle]
  · rw [exec_read_of_readTouch hidle (readTouch_of_same hinit hsame), ret_of_idle hidle]
  · have hidle' : (s.setLastReported s.current).seq = .idle := hidle
    rw [exec_read_of_readTouch hidle (readTouch_of_new hinit hnew), ret_of_idle hidle']
    rfl

end Sys2Proof.Machine
end

section
/-! PROOFS. The encoder and the decoder are inverse to each other (30_encoding R90 to R111). -/

namespace Sys2Proof

/-! ## Operands of the host port -/

theorem withBit_bitByte (b : Bool) (rest : List Byte) (f : Bool → Instr) : withBit (bitByte b) rest f = .ok (f b) rest := by
  cases b <;> rfl

/-- Only the byte of a bit is read as that bit. -/
theorem withBit_eq_ok {b : Byte} {rest rest' : List Byte} {f : Bool → Instr} {i : Instr}
    (h : withBit b rest f = .ok i rest') : ∃ x, b = bitByte x ∧ i = f x ∧ rest' = rest := by
  unfold withBit at h
  split at h
  · cases h; exact ⟨false, ‹_›, rfl, rfl⟩
  · split at h
    · cases h; exact ⟨true, ‹_›, rfl, rfl⟩
    · cases h

theorem halfOf_hiByte_loByte (h : Half) : halfOf (hiByte h) (loByte h) = h :=
  BitVec.extractLsb'_append_extractLsb' (w := 8) (len := 8)

theorem hiByte_halfOf (hi lo : Byte) : hiByte (halfOf hi lo) = hi := BitVec.extractLsb'_append_eq_left

theorem loByte_halfOf (hi lo : Byte) : loByte (halfOf hi lo) = lo := BitVec.extractLsb'_append_eq_right

theorem decodeCmd_encoded (opcode cap : Byte) (payload rest : List Byte) (hold : Bool) (h : payload.length ≤ 254) :
    decodeCmd (opcode :: BitVec.ofNat 8 payload.length :: (payload ++ cap :: bitByte hold :: rest)) =
      .ok (.cmd opcode payload cap hold) rest := by
  have hn : (BitVec.ofNat 8 payload.length).toNat = payload.length := by simp; omega
  have hfits : ¬ Config.maxReqPayload < payload.length := Nat.not_lt.2 h
  simp only [decodeCmd, hn, if_neg hfits, List.drop_left, List.take_left, withBit_bitByte]

/-- What CMD's operands are read from (R111, log 10). -/
theorem decodeCmd_eq_ok {bytes rest : List Byte} {i : Instr} (h : decodeCmd bytes = .ok i rest) :
    ∃ opcode payload cap hold, i = .cmd opcode payload cap hold ∧ payload.length ≤ 254 ∧
      bytes = opcode :: BitVec.ofNat 8 payload.length :: (payload ++ cap :: bitByte hold :: rest) := by
  unfold decodeCmd at h
  split at h
  · rename_i opcode n r
    split at h
    · cases h
    · rename_i hfits
      split at h
      · rename_i cap hold tail hdrop
        obtain ⟨x, rfl, rfl, rfl⟩ := withBit_eq_ok h
        have hlen : (r.take n.toNat).length = n.toNat := by
          have := congrArg List.length hdrop
          simp at this
          simp; omega
        refine ⟨opcode, r.take n.toNat, cap, x, rfl, ?_, ?_⟩
        · rw [hlen]; exact Nat.not_lt.1 hfits
        · rw [hlen, ← hdrop, List.take_append_drop]; simp
      · cases h
  · cases h

/-! ## Request frames -/

theorem wellFormed_regWrite_iff {addr : Byte} {data : List Byte} :
    (Instr.regWrite addr data).wellFormed = true ↔ 1 ≤ data.length ∧ data.length ≤ 251 :=
  Bool.and_eq_true_iff.trans (and_congr decide_eq_true_iff decide_eq_true_iff)

theorem canonical_iff {p : Params} {i : Instr} : i.canonical p = true ↔
    i.wellFormed = true ∧ ∀ opcode payload, i = .reqFrame opcode payload → classify p opcode payload = i := by
  unfold Instr.canonical
  rw [Bool.and_eq_true_iff]
  refine and_congr_right fun _ => ?_
  split
  · simp
  · rename_i hother
    exact ⟨fun _ opcode payload h => (hother opcode payload h).elim, fun _ => rfl⟩

theorem decodeWire_requestFrame (p : Params) (opcode : Byte) (payload rest : List Byte) (h : payload.length ≤ 254) :
    decodeWire p (requestFrame opcode payload ++ rest) = .ok (classify p opcode payload) rest := by
  have hn : (BitVec.ofNat 8 (payload.length + 1)).toNat = payload.length + 1 := by simp; omega
  simp [decodeWire, requestFrame, hn]

/-- What a request frame is read from (R91). -/
theorem decodeWire_eq_ok {p : Params} {bytes rest : List Byte} {i : Instr} (h : decodeWire p bytes = .ok i rest) :
    ∃ opcode payload, i = classify p opcode payload ∧ payload.length ≤ 254 ∧ bytes = requestFrame opcode payload ++ rest := by
  unfold decodeWire at h
  split at h
  · rename_i hd len opcode r
    split at h
    · cases h
    split at h
    · cases h
    split at h
    · cases h
    rename_i hhdr hlen htrunc
    cases h
    have hl : (r.take (len.toNat - 1)).length = len.toNat - 1 := by simp; omega
    refine ⟨opcode, r.take (len.toNat - 1), rfl, by have := len.isLt; omega, ?_⟩
    rw [requestFrame, hl, not_not.1 hhdr, show len.toNat - 1 + 1 = len.toNat by omega]
    simp
  · cases h

/-- A frame that is read as a command has that command's bytes (R100). -/
theorem encode_classify (p : Params) (opcode : Byte) (payload : List Byte) :
    encode p (classify p opcode payload) = requestFrame opcode payload := by
  unfold classify
  split
  case h_1 =>
    split_ifs with h h h h h
    case neg => rfl
    all_goals rw [h]; rfl
  case h_2 =>
    split_ifs with h
    · rw [h]; rfl
    · rfl
  case h_3 => rfl
  case h_4 =>
    split_ifs with hread hwrite
    · obtain ⟨rfl, rfl, rfl⟩ := hread; rfl
    · obtain ⟨rfl, rfl, -, hlen⟩ := hwrite
      simp [encode, regWritePayload, hlen]
    · rfl

theorem classify_channel (p : Params) (opcode : Byte) (payload : List Byte) :
    (classify p opcode payload).channel = some .wire := by
  unfold classify
  repeat' split
  all_goals rfl

theorem classify_wellFormed {p : Params} {opcode : Byte} {payload : List Byte} (h : payload.length ≤ 254) :
    (classify p opcode payload).wellFormed = true := by
  unfold classify
  split
  case h_1 => split_ifs <;> rfl
  case h_2 => split_ifs <;> rfl
  case h_3 => rfl
  case h_4 =>
    split_ifs with hread hwrite
    · rfl
    · obtain ⟨-, -, hne, -⟩ := hwrite
      simp only [List.length_cons] at h
      exact wellFormed_regWrite_iff.2 ⟨List.length_pos_iff.2 hne, by omega⟩
    · exact decide_eq_true h

/-- Distinct opcodes and the right payload are read as the command they stand for (R100). -/
theorem classify_command {p : Params} {i : Instr} (hd : p.opcodesDistinct) (hi : i.canonical p = true)
    (hch : i.channel = some .wire) :
    ∃ opcode payload, payload.length ≤ 254 ∧ encode p i = requestFrame opcode payload ∧ classify p opcode payload = i := by
  simp only [Params.opcodesDistinct, Params.opcodes, List.nodup_cons, List.mem_cons, List.not_mem_nil, or_false, not_or] at hd
  obtain ⟨⟨hgvet, hgvdt, -, hgvrs, -, -, hgvee⟩, ⟨hetdt, -, hetrs, -, -, hetee⟩,
    ⟨-, hdtrs, -, -, hdtee⟩, -, ⟨-, -, hrsee⟩, -⟩ := hd
  rw [canonical_iff] at hi
  cases i with
  | getVersion => exact ⟨_, [], by simp, rfl, if_pos rfl⟩
  | enableTouch => exact ⟨_, [], by simp, rfl, by simp [classify, Ne.symm hgvet]⟩
  | disableTouch => exact ⟨_, [], by simp, rfl, by simp [classify, Ne.symm hgvdt, Ne.symm hetdt]⟩
  | calibrateMode t => exact ⟨_, [t], by simp, rfl, if_pos rfl⟩
  | regStart => exact ⟨_, [], by simp, rfl, by simp [classify, Ne.symm hgvrs, Ne.symm hetrs, Ne.symm hdtrs]⟩
  | regRead addr count => exact ⟨_, regReadPayload addr count, by simp [regReadPayload], rfl, if_pos ⟨rfl, rfl, rfl⟩⟩
  | regWrite addr data =>
    obtain ⟨hpos, hle⟩ := wellFormed_regWrite_iff.1 hi.1
    have hne : data ≠ [] := List.length_pos_iff.1 hpos
    exact ⟨_, regWritePayload addr data, by simp [regWritePayload]; omega, rfl,
      by simp [classify, regWritePayload, hne]; omega⟩
  | eepromWrite =>
    exact ⟨_, [], by simp, rfl, by simp [classify, Ne.symm hgvee, Ne.symm hetee, Ne.symm hdtee, Ne.symm hrsee]⟩
  | reqFrame opcode payload =>
    exact ⟨opcode, payload, of_decide_eq_true hi.1, rfl, hi.2 opcode payload rfl⟩
  | _ => simp [Instr.channel] at hch

/-! ## Touch packets -/

theorem penDownByte_extract : ∀ {pen : Byte},
    pen.getLsbD 7 = true → pen.getLsbD 0 = true → penDownByte (pen.extractLsb' 1 6) = pen := by
  decide

theorem penUpByte_extract : ∀ {pen : Byte},
    pen.getLsbD 7 = true → pen.getLsbD 0 = false → penUpByte (pen.extractLsb' 1 6) = pen := by
  decide

theorem penInvalidByte_extract : ∀ {pen : Byte}, pen.getLsbD 7 = false → penInvalidByte (pen.extractLsb' 0 7) = pen := by
  decide

theorem decodePkt_penDown (ignored : BitVec 6) (b1 b2 b3 b4 : Byte) (rest : List Byte) :
    decodePkt (penDownByte ignored :: b1 :: b2 :: b3 :: b4 :: rest) = .ok (.pktPenDown ignored b1 b2 b3 b4) rest := by
  have hbits : ∀ i : BitVec 6, (penDownByte i).getLsbD 7 = true ∧ (penDownByte i).getLsbD 0 = true ∧
    (penDownByte i).extractLsb' 1 6 = i := by decide
  obtain ⟨h7, h0, hmid⟩ := hbits ignored
  simp only [decodePkt, h7, h0, hmid, Bool.true_eq_false, if_false, if_true]

theorem decodePkt_penUp (ignored : BitVec 6) (b1 b2 b3 b4 : Byte) (rest : List Byte) :
    decodePkt (penUpByte ignored :: b1 :: b2 :: b3 :: b4 :: rest) = .ok (.pktPenUp ignored b1 b2 b3 b4) rest := by
  have hbits : ∀ i : BitVec 6, (penUpByte i).getLsbD 7 = true ∧ (penUpByte i).getLsbD 0 = false ∧
    (penUpByte i).extractLsb' 1 6 = i := by decide
  obtain ⟨h7, h0, hmid⟩ := hbits ignored
  simp only [decodePkt, h7, h0, hmid, Bool.true_eq_false, Bool.false_eq_true, if_false]

theorem decodePkt_penInvalid (low : BitVec 7) (b1 b2 b3 b4 : Byte) (rest : List Byte) :
    decodePkt (penInvalidByte low :: b1 :: b2 :: b3 :: b4 :: rest) = .ok (.pktInvalid low b1 b2 b3 b4) rest := by
  have hbits : ∀ i : BitVec 7, (penInvalidByte i).getLsbD 7 = false ∧ (penInvalidByte i).extractLsb' 0 7 = i := by decide
  obtain ⟨h7, hlow⟩ := hbits low
  simp only [decodePkt, h7, hlow, if_true]

/-- What a packet is read from (R95, R96). -/
theorem decodePkt_eq_ok {bytes rest : List Byte} {i : Instr} (h : decodePkt bytes = .ok i rest) :
    ∃ (ignored : BitVec 6) (low : BitVec 7) (pen b1 b2 b3 b4 : Byte), bytes = pen :: b1 :: b2 :: b3 :: b4 :: rest ∧
      (i = .pktPenDown ignored b1 b2 b3 b4 ∧ pen = penDownByte ignored ∨
        i = .pktPenUp ignored b1 b2 b3 b4 ∧ pen = penUpByte ignored ∨
        i = .pktInvalid low b1 b2 b3 b4 ∧ pen = penInvalidByte low) := by
  unfold decodePkt at h
  split at h
  · rename_i pen b1 b2 b3 b4 tail
    refine ⟨pen.extractLsb' 1 6, pen.extractLsb' 0 7, pen, b1, b2, b3, b4, ?_⟩
    split_ifs at h with h7 h0
    · cases h; exact ⟨rfl, .inr (.inr ⟨rfl, (penInvalidByte_extract h7).symm⟩)⟩
    · cases h; exact ⟨rfl, .inl ⟨rfl, (penDownByte_extract (by simpa using h7) h0).symm⟩⟩
    · cases h; exact ⟨rfl, .inr (.inl ⟨rfl, (penUpByte_extract (by simpa using h7) (by simpa using h0)).symm⟩)⟩
  · cases h

/-! ## Response frames -/

theorem decodeRsp_frame (len status opcode : Byte) (payload rest : List Byte) (h : payload.length = len.toNat - 2) :
    decodeRsp (Config.hdr :: len :: status :: opcode :: (payload ++ rest)) = .ok (.rspFrame len status opcode payload) rest := by
  simp [decodeRsp, ← h]

/-- What a response frame is read from (R92). -/
theorem decodeRsp_eq_ok {bytes rest : List Byte} {i : Instr} (h : decodeRsp bytes = .ok i rest) :
    ∃ len status opcode payload, i = .rspFrame len status opcode payload ∧ payload.length = len.toNat - 2 ∧
      bytes = Config.hdr :: len :: status :: opcode :: (payload ++ rest) := by
  unfold decodeRsp at h
  split at h
  · rename_i hd len status opcode r
    split_ifs at h with hhdr hlen
    cases h
    refine ⟨len, status, opcode, _, rfl, ?_, ?_⟩
    · simp; omega
    · rw [not_not.1 hhdr, List.take_append_drop]
  · cases h

/-! ## Host words -/

/-- The operands of the host port are read back, whatever follows them. -/
theorem decodeHost_encode {p : Params} {i : Instr} (hwf : i.wellFormed = true) (hch : i.channel = some .host) (rest : List Byte) :
    decodeHost (encode p i ++ rest) = .ok i rest := by
  cases i with
  | cmd opcode payload cap hold =>
    have hlen : payload.length ≤ 254 := of_decide_eq_true hwf
    rw [← decodeCmd_encoded opcode cap payload rest hold hlen]
    simp [encode, decodeHost]
  | waitresp tmo hold => simp [encode, decodeHost, decodeWaitresp, halfOf_hiByte_loByte, withBit_bitByte]
  | init width height rotated => simp [encode, decodeHost, decodeInit, halfOf_hiByte_loByte, withBit_bitByte]
  | calwait tmo => simp [encode, decodeHost, decodeCalwait, halfOf_hiByte_loByte]
  | read | calstart | calpoint | setreg | regdump | reserved0 | reservedA | reservedB | reservedC | reservedD | reservedE
  | reservedF => rfl
  | _ => simp [Instr.channel] at hch

/-- A select code, read as a number, is that byte. -/
theorem eq_ofNat_of_toNat {code : Byte} {n : Nat} (h : code.toNat = n) : code = BitVec.ofNat 8 n := by
  rw [← h, BitVec.ofNat_toNat, BitVec.setWidth_eq]

theorem decodeHost_eq_ok {p : Params} {bytes rest : List Byte} {i : Instr} (h : decodeHost bytes = .ok i rest) :
    encode p i ++ rest = bytes ∧ i.channel = some .host ∧ i.wellFormed = true := by
  unfold decodeHost at h
  split at h
  · cases h
  rename_i code r
  split at h
  case h_2 hcode =>
    obtain ⟨opcode, payload, cap, hold, rfl, hlen, rfl⟩ := decodeCmd_eq_ok h
    rw [eq_ofNat_of_toNat hcode]
    exact ⟨by simp [encode], rfl, decide_eq_true hlen⟩
  case h_3 hcode =>
    unfold decodeWaitresp at h
    split at h
    · obtain ⟨x, rfl, rfl, rfl⟩ := withBit_eq_ok h
      rw [eq_ofNat_of_toNat hcode]
      exact ⟨by simp [encode, hiByte_halfOf, loByte_halfOf], rfl, rfl⟩
    · cases h
  case h_4 hcode =>
    unfold decodeInit at h
    split at h
    · obtain ⟨x, rfl, rfl, rfl⟩ := withBit_eq_ok h
      rw [eq_ofNat_of_toNat hcode]
      exact ⟨by simp [encode, hiByte_halfOf, loByte_halfOf], rfl, rfl⟩
    · cases h
  case h_8 hcode =>
    unfold decodeCalwait at h
    split at h
    · cases h
      rw [eq_ofNat_of_toNat hcode]
      exact ⟨by simp [encode, hiByte_halfOf, loByte_halfOf], rfl, rfl⟩
    · cases h
  case h_9 hcode =>
    unfold decodeSetreg at h
    split at h
    · cases h
      rw [eq_ofNat_of_toNat hcode]
      exact ⟨rfl, rfl, rfl⟩
    · cases h
  case h_17 => cases h
  all_goals
    rename_i hcode
    cases h
    rw [eq_ofNat_of_toNat hcode]
    exact ⟨rfl, rfl, rfl⟩

/-! ## The round trips -/

/-- Settles O4: each place's frame is read back, and a request frame as its command. -/
theorem decodeOfEncode : Obligations.DecodeOfEncode := by
  intro p i ch rest hd hi hch
  have hwf : i.wellFormed = true := (Bool.and_eq_true_iff.1 hi).1
  cases ch with
  | host => exact decodeHost_encode hwf hch rest
  | wire =>
    obtain ⟨opcode, payload, hlen, henc, hcl⟩ := classify_command hd hi hch
    rw [henc, ← hcl]
    exact decodeWire_requestFrame p opcode payload rest hlen
  | rsp =>
    cases i with
    | rspFrame len status opcode payload => exact decodeRsp_frame len status opcode payload rest (of_decide_eq_true hwf)
    | _ => simp [Instr.channel] at hch
  | pkt =>
    cases i with
    | pktPenDown ignored b1 b2 b3 b4 => exact decodePkt_penDown ignored b1 b2 b3 b4 rest
    | pktPenUp ignored b1 b2 b3 b4 => exact decodePkt_penUp ignored b1 b2 b3 b4 rest
    | pktInvalid low b1 b2 b3 b4 => exact decodePkt_penInvalid low b1 b2 b3 b4 rest
    | _ => simp [Instr.channel] at hch

/-- Settles O5: place by place, what each decoder reads is what the encoder writes for its answer. -/
theorem encodeOfDecode : Obligations.EncodeOfDecode := by
  intro p i ch bytes rest h
  cases ch with
  | host => exact decodeHost_eq_ok h
  | wire =>
    obtain ⟨opcode, payload, rfl, hlen, rfl⟩ := decodeWire_eq_ok h
    exact ⟨by rw [encode_classify], classify_channel p opcode payload, classify_wellFormed hlen⟩
  | rsp =>
    obtain ⟨len, status, opcode, payload, rfl, hlen, rfl⟩ := decodeRsp_eq_ok h
    exact ⟨rfl, rfl, decide_eq_true hlen⟩
  | pkt =>
    obtain ⟨ignored, low, pen, b1, b2, b3, b4, rfl, ⟨rfl, rfl⟩ | ⟨rfl, rfl⟩ | ⟨rfl, rfl⟩⟩ := decodePkt_eq_ok h
    all_goals exact ⟨rfl, rfl, rfl⟩

/-- Settles O3: the words are closed, and the decoder computes. -/
theorem writtenOutWordsDecode : Obligations.WrittenOutWordsDecode := by
  unfold Obligations.WrittenOutWordsDecode
  decide

end Sys2Proof
end

section
/-! PROOFS. What the engine accepts, and what an accepted instruction runs (10_state R24, 60_exceptions R271, 70_reset R300, R301). -/

namespace Sys2Proof.Machine

/-! ## The guards -/

/-- A busy engine accepts nothing (R300). -/
theorem whenIdle_of_busy {s : State} (hbusy : s.seq ≠ .idle) (run : Host.Outcome State Fault Refusal) :
    whenIdle s run = .next s :=
  if_pos (by simp [State.busy, hbusy])

theorem hostBus_of_busy {s : State} (hbusy : s.seq ≠ .idle) (run : Host.Outcome State Fault Refusal) :
    hostBus s run = .next s :=
  whenIdle_of_busy hbusy _

/-- An idle engine outside a calibration runs a bus operation. -/
theorem hostBus_of_idle {s : State} (hidle : s.seq = .idle) (hmode : s.mode ≠ .calibrating)
    (run : Host.Outcome State Fault Refusal) : hostBus s run = run := by
  rw [hostBus, whenIdle_of_idle hidle, if_neg hmode]

/-- During a calibration it refuses one (R301). -/
theorem hostBus_of_calibrating {s : State} (hidle : s.seq = .idle) (hmode : s.mode = .calibrating)
    (run : Host.Outcome State Fault Refusal) : hostBus s run = .refused .calibrationHeld := by
  rw [hostBus, whenIdle_of_idle hidle, if_pos hmode]

/-- The guards answer a next state of an idle engine only by running. -/
theorem run_eq_next_of_whenIdle {s t : State} {run : Host.Outcome State Fault Refusal} (hidle : s.seq = .idle)
    (h : whenIdle s run = .next t) : run = .next t := by
  rwa [whenIdle_of_idle hidle] at h

theorem decodeEnabled_seq {s : State} (h : s.decodeEnabled = true) : s.seq = .idle := by
  simp only [State.decodeEnabled, State.busy, Bool.and_eq_true, Bool.not_eq_true', decide_eq_false_iff_not, not_not] at h
  exact h.1.1

/-! ## What an accepted instruction runs -/

/-- The state after an instruction that an idle engine accepts. -/
def performed (i : Instr) (s : State) : State :=
  match i with
  | .getVersion => (runCmd (cGetVersion s.cfg) s).2
  | .enableTouch => (runCmd (cEnableTouch s.cfg) s).2
  | .disableTouch => (runCmd (cDisableTouch s.cfg) s).2
  | .calibrateMode calType => (runCmd (cCalibrateMode s.cfg calType) s).2
  | .regStart => (regStart s).2
  | .regRead addr count => (runCmd (cRegRead s.cfg addr count) s).2
  | .regWrite addr data => (runCmd (cRegWrite s.cfg addr data) s).2
  | .eepromWrite => hostCmd s.cfg.opEepromWrite [] 0 false s
  | .reqFrame opcode payload =>
    (arm s.cfg.tCmd ((sendBytes (select (latchCmd opcode payload 0xFF false s)) (requestFrame opcode payload)).setOp .cmd)).goTo
      .wait
  | .rspFrame len status opcode payload => offer (Config.hdr :: len :: status :: opcode :: payload) s
  | .pktPenDown _ _ _ _ _ | .pktPenUp _ _ _ _ _ | .pktInvalid _ _ _ _ _ =>
    if s.decodeEnabled then packetRound (offerBytes (encode s.cfg i) s) else offer (encode s.cfg i) s
  | .cmd opcode payload cap hold => hostCmd opcode payload cap hold s
  | .waitresp tmo hold => ret .waitresp (Result.ofReply (waitResp tmo hold s).1) (waitResp tmo hold s).2
  | .init width height rotated => ret .init (.bool (init width height rotated s).1) (init width height rotated s).2
  | .read => ret .read (readTouch s).1 (readTouch s).2
  | .calstart => ret .calstart (.bool (calStart s).1) (calStart s).2
  | .calpoint => ret .calpoint (calPoint s) s
  | .calwait tmo => ret .calwait (Result.ofCalwait (calWait tmo s).1) (calWait tmo s).2
  | .setreg reg value => ret .setreg (setReg reg value s).1 (setReg reg value s).2
  | .regdump => retNone .regdump (regDump s)
  | .reserved0 | .reservedA | .reservedB | .reservedC | .reservedD | .reservedE | .reservedF => s
  | .select => select s
  | .unselect => unselect s
  | .xchg out => (xchg .receiving out s).2
  | .decode => if s.decodeEnabled then decodeRun s else s

/-- The chip's bytes are taken as they come by an engine that does not wait for a response (log 19). -/
theorem respond_of_not_waiting {s : State} (h : s.seq ≠ .wait ∨ s.op = .decode) (bytes : List Byte) :
    respond bytes s = .next (offer bytes s) :=
  if_neg fun ⟨hwait, hop⟩ => h.elim (· hwait) (hop ·)

theorem exec_packet {i : Instr} (h : i.channel = some .pkt) (s : State) : exec i s = execPacket (encode s.cfg i) s := by
  cases i with
  | pktPenDown | pktPenUp | pktInvalid => rfl
  | _ => simp [Instr.channel] at h

theorem performed_packet {i : Instr} (h : i.channel = some .pkt) (s : State) : performed i s =
    if s.decodeEnabled then packetRound (offerBytes (encode s.cfg i) s) else offer (encode s.cfg i) s := by
  cases i with
  | pktPenDown | pktPenUp | pktInvalid => rfl
  | _ => simp [Instr.channel] at h

theorem execPacket_eq (bytes : List Byte) (s : State) : execPacket bytes s =
    .next (if s.decodeEnabled then packetRound (offerBytes bytes s) else offer bytes s) := by
  unfold execPacket; split <;> rfl

/-- An idle engine performs every well-formed instruction, but for a bus operation during a calibration (R301) and an exchange
with chip-select deasserted (R132). -/
theorem exec_of_idle {s : State} {i : Instr} (hidle : s.seq = .idle) (hwf : i.wellFormed = true)
    (hmode : usesBus i = true → s.mode ≠ .calibrating) (hcs : (∃ out, i = .xchg out) → s.cs = true) :
    exec i s = .next (performed i s) := by
  cases i with
  | getVersion | enableTouch | disableTouch | calibrateMode | regStart | regRead | eepromWrite | waitresp | init | setreg
  | regdump => exact hostBus_of_idle hidle (hmode rfl) _
  | regWrite addr data =>
    obtain ⟨hpos, hle⟩ := wellFormed_regWrite_iff.1 hwf
    have hcount : ¬ (data.length < 1 ∨ Config.maxRegWriteData < data.length) := fun h =>
      h.elim (Nat.not_lt.2 hpos) (Nat.not_lt.2 hle)
    exact (if_neg hcount).trans (hostBus_of_idle hidle (hmode rfl) _)
  | cmd | reqFrame => exact (hostBus_of_idle hidle (hmode rfl) _).trans (if_neg (Nat.not_lt.2 (of_decide_eq_true hwf)))
  | rspFrame => exact respond_of_not_waiting (.inl (by simp [hidle])) _
  | pktPenDown | pktPenUp | pktInvalid => exact execPacket_eq _ s
  | read | calstart | calpoint | calwait => exact whenIdle_of_idle hidle _
  | reserved0 | reservedA | reservedB | reservedC | reservedD | reservedE | reservedF | select | unselect => rfl
  | xchg out => exact if_pos (hcs ⟨out, rfl⟩)
  | decode => exact (apply_ite Host.Outcome.next _ _ _).symm

/-- Where an idle engine answers a next state, it has performed the instruction. -/
theorem performed_of_exec {s t : State} {i : Instr} (hidle : s.seq = .idle) (h : exec i s = .next t) : t = performed i s := by
  have inj {u : State} (h : Host.Outcome.next u = (.next t : Host.Outcome State Fault Refusal)) : t = u :=
    (Host.Outcome.next.inj h).symm
  cases i with
  | getVersion | enableTouch | disableTouch | calibrateMode | regStart | regRead | eepromWrite | waitresp | init | setreg
  | regdump => exact inj (run_eq_next_of_hostBus hidle h)
  | regWrite addr data =>
    replace h : execRegWrite addr data s = .next t := h
    unfold execRegWrite at h
    split at h
    · cases run_eq_next_of_hostBus hidle h
    · exact inj (run_eq_next_of_hostBus hidle h)
  | cmd | reqFrame =>
    replace h := run_eq_next_of_hostBus hidle h
    split at h
    · cases h
    · exact inj h
  | rspFrame => exact inj ((respond_of_not_waiting (.inl (by simp [hidle])) _).symm.trans h)
  | pktPenDown | pktPenUp | pktInvalid => exact inj ((execPacket_eq _ s).symm.trans h)
  | read | calstart | calpoint | calwait => exact inj (run_eq_next_of_whenIdle hidle h)
  | reserved0 | reservedA | reservedB | reservedC | reservedD | reservedE | reservedF | select | unselect => exact inj h
  | xchg out =>
    replace h : execXchg out s = .next t := h
    unfold execXchg at h
    split at h
    · exact inj h
    · cases h
  | decode => exact inj ((apply_ite Host.Outcome.next _ _ _).trans h)

/-- Settles O10: an idle engine performs the instruction. -/
theorem wellFormedInstructionsComplete : Obligations.WellFormedInstructionsComplete :=
  fun _ _ hidle hwf hmode hcs => ⟨_, exec_of_idle hidle hwf hmode hcs⟩

/-- Settles O6: none of the seven arms looks at the state. -/
theorem reservedCodesChangeNothing : Obligations.ReservedCodesChangeNothing := by
  intro s i hi
  simp only [List.mem_cons, List.not_mem_nil, or_false] at hi
  rcases hi with rfl | rfl | rfl | rfl | rfl | rfl | rfl <;> rfl

/-- Settles O8: each of these operations is guarded by `hostBus`. -/
theorem calibrationRefusesOtherBusOperations : Obligations.CalibrationRefusesOtherBusOperations := by
  intro s i hidle hmode hbus
  cases i with
  | getVersion | enableTouch | disableTouch | calibrateMode | regStart | regRead | eepromWrite | waitresp | init | setreg
  | regdump | cmd | reqFrame => exact hostBus_of_calibrating hidle hmode _
  | regWrite addr data =>
    have hexec : exec (.regWrite addr data) s = execRegWrite addr data s := rfl
    rw [hexec, execRegWrite]
    split <;> exact hostBus_of_calibrating hidle hmode _
  | _ => cases hbus

/-- Settles O9: the length checks of CMD and the request frame, and the count check of REG_WRITE, at their bounds. -/
theorem overlongRequestsAreRefused : Obligations.OverlongRequestsAreRefused := by
  intro s hidle hmode
  refine ⟨fun opcode cap payload hold hlen => ⟨?_, ?_⟩, fun addr data hcount => ?_⟩
  · exact (hostBus_of_idle hidle hmode _).trans (if_pos hlen)
  · exact (hostBus_of_idle hidle hmode _).trans (if_pos hlen)
  · have houtside : data.length < 1 ∨ Config.maxRegWriteData < data.length :=
      hcount.imp (fun h => by simp [h]) id
    exact (if_pos houtside).trans (hostBus_of_idle hidle hmode _)

/-! ## The step -/

theorem step_of_inputs {s : State} {st : Stimulus} {rest : List Stimulus} (h : s.inputs = st :: rest) :
    step s = takeStimulus st rest s := by
  rw [step, stepEngine, h]

theorem step_of_no_inputs {s : State} (h : s.inputs = []) : step s = .next (seqStep s) := by
  rw [step, stepEngine, h]

/-- An idle engine takes a word of the host or a request. -/
theorem takeStimulus_word_of_idle {s : State} {ch : Channel} (hch : ch = .host ∨ ch = .wire) (hidle : s.seq = .idle)
    (bytes : List Byte) (rest : List Stimulus) :
    takeStimulus (.word ch bytes) rest s = runDecoded exec (decode s.cfg ch bytes) (s.setInputs rest) := by
  have hwaits : waitsForIdle ch = true := by rcases hch with rfl | rfl <;> rfl
  simp [takeStimulus, hwaits, State.busy, hidle]

/-- The chip's words are taken at any moment. -/
theorem takeStimulus_word_of_chip {s : State} {ch : Channel} (hch : ch = .rsp ∨ ch = .pkt) (bytes : List Byte)
    (rest : List Stimulus) : takeStimulus (.word ch bytes) rest s = takeFromChip ch bytes (s.setInputs rest) := by
  rcases hch with rfl | rfl <;> rfl

theorem takeStimulus_start_of_idle {s : State} (hidle : s.seq = .idle) (bytes : List Byte) (rest : List Stimulus) :
    takeStimulus (.start bytes) rest s = runDecoded begin (decode s.cfg .host bytes) (s.setInputs rest) := by
  simp [takeStimulus, State.busy, hidle]

/-- While the engine is busy, the sequencer has the step. -/
theorem takeStimulus_word_of_busy {s : State} {ch : Channel} (hch : ch = .host ∨ ch = .wire) (hbusy : s.seq ≠ .idle)
    (bytes : List Byte) (rest : List Stimulus) : takeStimulus (.word ch bytes) rest s = .next (seqStep s) := by
  have hwaits : waitsForIdle ch = true := by rcases hch with rfl | rfl <;> rfl
  simp [takeStimulus, hwaits, State.busy, hbusy]

theorem takeStimulus_start_of_busy {s : State} (hbusy : s.seq ≠ .idle) (bytes : List Byte) (rest : List Stimulus) :
    takeStimulus (.start bytes) rest s = .next (seqStep s) := by
  simp [takeStimulus, State.busy, hbusy]

theorem takeFromChip_of_decode_ok {s : State} {ch : Channel} {bytes tail : List Byte} {i : Instr}
    (h : decode s.cfg ch bytes = .ok i tail) : takeFromChip ch bytes s = exec i (offerBytes tail s) := by
  rw [takeFromChip, h]

theorem takeFromChip_of_decode_error {s : State} {ch : Channel} {bytes : List Byte} {e : DecodeError}
    (h : decode s.cfg ch bytes = .error e) :
    takeFromChip ch bytes s = if ch = .rsp then respond bytes s else .next (offer bytes s) := by
  rw [takeFromChip, h]

/-- Settles O2: each stimulus is taken as its case of `takeStimulus` says. -/
theorem stepRunsTheDecodedInstruction : Obligations.StepRunsTheDecodedInstruction := by
  refine ⟨?word, ?noWord, ?trigger, ?start, ?startTrigger, fun s => step_of_no_inputs⟩
  case word =>
    intro s ch bytes tail rest i hin hdec
    rw [step_of_inputs hin]
    refine ⟨fun hch hidle => ?_, fun hch => ?_⟩
    · rw [takeStimulus_word_of_idle hch hidle, hdec]; rfl
    · rw [takeStimulus_word_of_chip hch]
      exact takeFromChip_of_decode_ok hdec
  case noWord =>
    intro s ch bytes rest e hin hdec
    rw [step_of_inputs hin]
    refine ⟨fun hch hidle => ?_, fun hch => ?_, fun hch => ?_⟩
    · rw [takeStimulus_word_of_idle hch hidle, hdec]; rfl
    · rw [takeStimulus_word_of_chip (.inl hch), takeFromChip_of_decode_error (s := s.setInputs rest) hdec, if_pos hch]; rfl
    · subst hch
      rw [takeStimulus_word_of_chip (.inr rfl), takeFromChip_of_decode_error (s := s.setInputs rest) hdec]; rfl
  case trigger => exact fun s rest hin => step_of_inputs hin
  case start =>
    intro s bytes tail rest i hin hidle hdec
    rw [step_of_inputs hin, takeStimulus_start_of_idle hidle, hdec]; rfl
  case startTrigger => exact fun s rest hin => step_of_inputs hin

/-- Settles O1: the table of R39, and an engine without a stimulus in `IDLE`. -/
theorem resetStateIsAsTabulated : Obligations.ResetStateIsAsTabulated := by
  refine ⟨rfl, rfl, rfl, rfl, rfl, rfl, rfl, ?_, ?_, step_of_no_inputs rfl⟩ <;> decide

/-- Settles O55: the reset stimulus runs `engineReset`, whose update names what it keeps. -/
theorem externalResetAtAnyTime : Obligations.ExternalResetAtAnyTime := by
  intro s rest hin
  exact ⟨engineReset (s.setInputs rest), step_of_inputs hin, rfl, rfl, rfl, rfl, rfl, ⟨rfl, rfl⟩, rfl, rfl, rfl⟩

end Sys2Proof.Machine
end

section
/-! PROOFS. The framing operations on any chip and on a scripted one (40_transport, 41_framing). -/

namespace Sys2Proof.Machine

/-! ## The receiving half: the trace grows, no timer draw and no echo is taken -/

/-- The trace has only grown, and neither a timer draw nor a byte answered to a request was taken. -/
structure Grows (s t : State) : Prop where
  trace : s.trace <:+ t.trace
  counts : t.env.counts = s.env.counts
  echo : t.env.echo = s.env.echo

theorem Grows.refl (s : State) : Grows s s := ⟨List.suffix_refl _, rfl, rfl⟩

theorem Grows.trans {a b c : State} (h1 : Grows a b) (h2 : Grows b c) : Grows a c :=
  ⟨h1.trace.trans h2.trace, h2.counts.trans h1.counts, h2.echo.trans h1.echo⟩

theorem Grows.emit (s : State) (e : Event) : Grows s (s.emit e) := ⟨List.suffix_cons _ _, rfl, rfl⟩

theorem Grows.setT (s : State) (t : Transient) : Grows s (s.setT t) := ⟨List.suffix_refl _, rfl, rfl⟩

theorem chipByte_trace (phase : Phase) (s : State) : (chipByte phase s).2.trace = s.trace := by
  unfold chipByte
  cases phase <;> dsimp only <;> split <;> rfl

theorem chipByte_receiving_grows (s : State) : Grows s (chipByte .receiving s).2 := by
  unfold chipByte
  dsimp only
  split <;> exact ⟨List.suffix_refl _, rfl, rfl⟩

theorem xchg_receiving_grows (out : Byte) (s : State) : Grows s (xchg .receiving out s).2 :=
  (chipByte_receiving_grows s).trans (.emit _ _)

theorem recvByte_grows (s : State) : Grows s (recvByte s).2 := (xchg_receiving_grows _ s).trans (.emit _ _)

theorem pollSig_grows (s : State) : Grows s (pollSig s).2 := by
  have hchip : Grows s (chipSig s).2 := by
    unfold chipSig
    split <;> exact ⟨List.suffix_refl _, rfl, rfl⟩
  exact hchip.trans (.emit _ _)

theorem pollExpired_grows (s : State) : Grows s (pollExpired s).2 := ⟨List.suffix_cons _ _, rfl, rfl⟩

theorem waitLoop_grows (n : Nat) (s : State) : Grows s (waitLoop n s).2 := by
  induction n generalizing s with
  | zero =>
    simp only [waitLoop]
    split
    · exact pollSig_grows s
    · exact (pollSig_grows s).trans (pollExpired_grows _)
  | succ n ih =>
    simp only [waitLoop]
    split
    · exact pollSig_grows s
    · exact ((pollSig_grows s).trans (pollExpired_grows _)).trans (ih _)

theorem recvPayload_grows (n : Nat) (s : State) : Grows s (recvPayload n s).2 := by
  induction n generalizing s with
  | zero => exact .refl s
  | succ n ih => exact (recvByte_grows s).trans (ih _)

theorem recvFrame_grows (expected cap : Byte) (s : State) : Grows s (recvFrame expected cap s).2 := by
  have h1 := recvByte_grows s
  have h2 := (h1.trans (recvByte_grows _)).trans (.setT _ { (recvByte (recvByte s).2).2.t with len := (recvByte (recvByte s).2).1 })
  have h3 := h2.trans (recvByte_grows _)
  have h4 := h3.trans (recvByte_grows _)
  unfold recvFrame
  dsimp only
  split_ifs
  · exact h1
  · exact h2
  · exact h3
  · exact h4
  · exact h4
  · exact (h4.trans (recvPayload_grows _ _)).trans (.setT _ _)

/-- After the timer is armed, `Receive` takes no further draw. -/
theorem receive_grows (expected cap : Byte) (tmo : Half) (s : State) : Grows (arm tmo s) (receive expected cap tmo s).2 := by
  have hwait : Grows (arm tmo s) (waitReady tmo s).2 := waitLoop_grows _ _
  unfold receive
  dsimp only
  split
  · exact hwait.trans (recvFrame_grows _ _ _)
  · exact hwait

theorem finish_grows (hold : Bool) (r : Reply × State) : Grows r.2 (finish hold r).2 :=
  ⟨⟨_, (finish_trace hold r).symm⟩, by rw [finish_env], by rw [finish_env]⟩

theorem arm_counts (d : Half) (s : State) : (arm d s).env.counts = s.env.counts.tail := by
  obtain ⟨_, _, h, -⟩ := arm_any d s
  rw [h]

/-! ## CMD and WAITRESP on any chip -/

/-- The request of a CMD, sent (R142). -/
def sentCmd (c : Command) (s : State) : State :=
  sendBytes (select (latchCmd c.opcode c.payload c.cap c.hold s)) (requestFrame c.opcode c.payload)

theorem runCmd_eq (c : Command) (s : State) :
    runCmd c s = finish c.hold (receive c.opcode c.cap s.cfg.tCmd (sentCmd c s)) := rfl

/-- What is sent, before the timer is armed: the request's bytes under chip-select (R141, R142). -/
theorem sentCmd_any (c : Command) (s : State) : ∃ (ignored echo : List Byte) (draws : Nat),
    ignored.length = c.payload.length + 3 ∧ sentCmd c s = { s with
      cs := true, t := (latchCmd c.opcode c.payload c.cap c.hold s).t, env := { s.env with echo := echo, draws := draws },
      trace := sentEvents (requestFrame c.opcode c.payload) ignored ++ .sel :: s.trace } := by
  obtain ⟨ignored, echo, draws, hl, h⟩ :=
    sendBytes_any (requestFrame c.opcode c.payload) (select (latchCmd c.opcode c.payload c.cap c.hold s))
  exact ⟨ignored, echo, draws, hl, h⟩

/-- The trace of a command begins with `SEL`, its request and `ARM(T_CMD)`, whatever follows. -/
theorem runCmd_trace (c : Command) (s : State) : ∃ (later : List Event) (ignored : List Byte),
    ignored.length = c.payload.length + 3 ∧ (runCmd c s).2.trace =
      later ++ .arm s.cfg.tCmd :: sentEvents (requestFrame c.opcode c.payload) ignored ++ .sel :: s.trace := by
  obtain ⟨ignored, echo, draws, hl, hsent⟩ := sentCmd_any c s
  obtain ⟨later, hlater⟩ := ((receive_grows c.opcode c.cap s.cfg.tCmd (sentCmd c s)).trans (finish_grows c.hold _)).trace
  exact ⟨later, ignored, hl, by rw [runCmd_eq, ← hlater, arm_trace, hsent]; simp⟩

theorem waitResp_trace (tmo : Half) (hold : Bool) (s : State) : ∃ later : List Event,
    (waitResp tmo hold s).2.trace = later ++ .arm tmo :: .sel :: s.trace := by
  obtain ⟨later, hlater⟩ :=
    ((receive_grows s.cfg.opCalibrateMode 0 tmo (select (latchWait tmo hold s))).trans (finish_grows hold _)).trace
  refine ⟨later, ?_⟩
  rw [waitResp, ← hlater, arm_trace]
  rfl

/-- A command takes exactly one draw from the timer's script. -/
theorem runCmd_counts (c : Command) (s : State) : (runCmd c s).2.env.counts = s.env.counts.tail := by
  obtain ⟨ignored, echo, draws, -, hsent⟩ := sentCmd_any c s
  rw [runCmd_eq, (finish_grows c.hold _).counts, (receive_grows _ _ _ _).counts, arm_counts, hsent]

theorem waitResp_counts (tmo : Half) (hold : Bool) (s : State) : (waitResp tmo hold s).2.env.counts = s.env.counts.tail := by
  rw [waitResp, (finish_grows hold _).counts, (receive_grows _ _ _ _).counts, arm_counts]
  rfl

/-! ## The return to the host -/

@[simp] theorem Reply.isErr_ok (p : List Byte) : (Reply.ok p).isErr = false := rfl
@[simp] theorem Reply.isErr_err (e : ProtocolError) : (Reply.err e).isErr = true := rfl

/-- The return writes none of the registers that an operation leaves alone. -/
theorem SameRegs.ret {s t : State} (h : SameRegs s t) (op : OpName) (r : Result) : SameRegs s (ret op r t) :=
  ⟨h.1, h.2, h.3, h.4, h.5, h.6, h.7, h.8, h.9, h.10, h.11⟩

theorem SameRegs.retNone {s t : State} (h : SameRegs s t) (op : OpName) : SameRegs s (retNone op t) :=
  ⟨h.1, h.2, h.3, h.4, h.5, h.6, h.7, h.8, h.9, h.10, h.11⟩

theorem ret_idle (op : OpName) (r : Result) (s : State) : Idle (ret op r s) := ⟨rfl, rfl⟩

theorem retNone_idle (op : OpName) (s : State) : Idle (retNone op s) := ⟨rfl, rfl⟩

@[simp] theorem ret_initialized (op : OpName) (r : Result) (s : State) : (ret op r s).initialized = s.initialized := rfl
@[simp] theorem ret_current (op : OpName) (r : Result) (s : State) : (ret op r s).current = s.current := rfl
@[simp] theorem ret_lastReported (op : OpName) (r : Result) (s : State) : (ret op r s).lastReported = s.lastReported := rfl
@[simp] theorem ret_pointIndex (op : OpName) (r : Result) (s : State) : (ret op r s).pointIndex = s.pointIndex := rfl
@[simp] theorem ret_offset (op : OpName) (r : Result) (s : State) : (ret op r s).offset = s.offset := rfl
@[simp] theorem ret_width (op : OpName) (r : Result) (s : State) : (ret op r s).width = s.width := rfl
@[simp] theorem ret_height (op : OpName) (r : Result) (s : State) : (ret op r s).height = s.height := rfl
@[simp] theorem ret_rotated (op : OpName) (r : Result) (s : State) : (ret op r s).rotated = s.rotated := rfl
@[simp] theorem ret_t (op : OpName) (r : Result) (s : State) : (ret op r s).t = s.t := rfl
@[simp] theorem ret_cfg (op : OpName) (r : Result) (s : State) : (ret op r s).cfg = s.cfg := rfl
@[simp] theorem ret_inputs (op : OpName) (r : Result) (s : State) : (ret op r s).inputs = s.inputs := rfl
@[simp] theorem ret_sink (op : OpName) (r : Result) (s : State) : (ret op r s).sink = s.sink := rfl
@[simp] theorem ret_seq (op : OpName) (r : Result) (s : State) : (ret op r s).seq = .idle := rfl
@[simp] theorem ret_op (op : OpName) (r : Result) (s : State) : (ret op r s).op = .none := rfl
@[simp] theorem ret_env (op : OpName) (r : Result) (s : State) : (ret op r s).env = s.env := rfl

@[simp] theorem ret_trace (op : OpName) (r : Result) (s : State) : (ret op r s).trace = .ret op (some r) :: s.trace := rfl

/-- CMD in an idle engine outside a calibration returns what the command it runs answers. -/
theorem exec_cmd_of_run {s u : State} {opcode cap : Byte} {payload : List Byte} {hold : Bool} {r : Reply} (hidle : s.seq = .idle)
    (hmode : s.mode ≠ .calibrating) (hlen : payload.length ≤ 254) (hrun : runCmd ⟨opcode, payload, cap, hold⟩ s = (r, u)) :
    exec (.cmd opcode payload cap hold) s = .next (ret .cmd (Result.ofReply r) u) := by
  have hhost : performed (.cmd opcode payload cap hold) s = ret .cmd (Result.ofReply (runCmd ⟨opcode, payload, cap, hold⟩ s).1)
    (runCmd ⟨opcode, payload, cap, hold⟩ s).2 := rfl
  have hwf : (Instr.cmd opcode payload cap hold).wellFormed = true := decide_eq_true hlen
  rw [exec_of_idle hidle hwf (fun _ => hmode) (by simp), hhost, hrun]

/-- WAITRESP likewise. -/
theorem exec_waitresp_of_run {s u : State} {tmo : Half} {hold : Bool} {r : Reply} (hidle : s.seq = .idle)
    (hmode : s.mode ≠ .calibrating) (hrun : waitResp tmo hold s = (r, u)) :
    exec (.waitresp tmo hold) s = .next (ret .waitresp (Result.ofReply r) u) := by
  rw [exec_of_idle hidle rfl (fun _ => hmode) (by simp), performed, hrun]

/-- R147's level as an equivalence. -/
theorem cs_iff_of_eq {cs hold : Bool} {r : Reply} (h : cs = (!r.isErr && hold)) : cs = true ↔ r.isErr = false ∧ hold = true := by
  rw [h, Bool.and_eq_true, Bool.not_eq_true']

/-- Settles O14: the laws of a command, and the return. -/
theorem cmdCompletesAndReleases : Obligations.CmdCompletesAndReleases := by
  intro s opcode cap payload hold hidle hmode hlen
  obtain ⟨later, ignored, hl, htrace⟩ := runCmd_trace ⟨opcode, payload, cap, hold⟩ s
  have hcs := runCmd_cs ⟨opcode, payload, cap, hold⟩ s
  have hbus := runCmd_bus ⟨opcode, payload, cap, hold⟩ s
  obtain ⟨r, u, hrun⟩ : ∃ r u, runCmd ⟨opcode, payload, cap, hold⟩ s = (r, u) := ⟨_, _, rfl⟩
  rw [hrun] at htrace hcs hbus
  exact ⟨_, r, later, ignored, exec_cmd_of_run hidle hmode hlen hrun, rfl, cs_iff_of_eq hcs, ret_idle _ _ _, hbus.sameRegs.ret _ _, hl,
    congrArg (_ :: ·) htrace⟩

/-- Settles O15: the same laws without a request. -/
theorem waitrespCompletesAndReleases : Obligations.WaitrespCompletesAndReleases := by
  intro s tmo hold hidle hmode
  obtain ⟨later, htrace⟩ := waitResp_trace tmo hold s
  have hcs := waitResp_cs tmo hold s
  have hbus := waitResp_bus tmo hold s
  obtain ⟨r, u, hrun⟩ : ∃ r u, waitResp tmo hold s = (r, u) := ⟨_, _, rfl⟩
  rw [hrun] at htrace hcs hbus
  exact ⟨_, r, later, exec_waitresp_of_run hidle hmode hrun, rfl, cs_iff_of_eq hcs, ret_idle _ _ _, hbus.sameRegs.ret _ _,
    congrArg (_ :: ·) htrace⟩

/-! ## One run of answers -/

/-- The bytes a parse consumes are a run's bytes: nothing after them is looked at. -/
theorem Parses.consumed {expected cap : Byte} {bytes rest : List Byte} {r : Reply} (h : Parses expected cap bytes r rest) :
    ∃ used, bytes = used ++ rest ∧ Parses expected cap used r [] := by
  cases h with
  | noHeader h _ bad => exact ⟨[h], rfl, .noHeader h [] bad⟩
  | invalidLength l _ bad => exact ⟨[0x55, l], rfl, .invalidLength l [] bad⟩
  | chipStatus l st _ len bad => exact ⟨[0x55, l, st], rfl, .chipStatus l st [] len bad⟩
  | invalidResponseOpcode l o _ len bad => exact ⟨[0x55, l, 0x00, o], rfl, .invalidResponseOpcode l o [] len bad⟩
  | responseTooLarge l _ len bad => exact ⟨[0x55, l, 0x00, expected], rfl, .responseTooLarge l [] len bad⟩
  | ok l payload _ len fits =>
    exact ⟨0x55 :: l :: 0x00 :: expected :: payload, rfl, by simpa using Parses.ok l payload [] len fits⟩

theorem Parses.answered {c : Turn} (h : Parses c.expected c.cap c.received c.reply []) : c.answered = true :=
  decide_eq_true h.not_timeout

/-- The script of a single run whose response is parsed in the end. -/
theorem answers_of_parses {s : State} {c : Turn} {n : Nat} {sig : List Bool} {counts : List Nat} {rest : List Byte}
    (hv : Parses c.expected c.cap c.received c.reply []) (hcounts : s.env.counts = n :: counts) (hk : c.rounds ≤ n)
    (hsig : s.env.sig = List.replicate c.rounds false ++ true :: sig) (hrx : s.env.rx = c.received ++ rest) :
    Answers s [c] sig rest := by
  refine ⟨by simpa using .inr hv, ?_, by simpa using hrx, .inr ⟨n, by rw [hcounts]; rfl, hk, ?_⟩, trivial⟩
  · simpa [Turn.levels, hv.answered] using hsig
  · simp [hv.answered]

/-- The script of a single run in which the line stays inactive until the timer expires. -/
theorem answers_of_silence {s : State} {c : Turn} {n : Nat} {sig : List Bool} {counts : List Nat} (hr : c.reply = .err .timeout)
    (hnone : c.received = []) (hn : c.rounds = n) (hcounts : s.env.counts = n :: counts)
    (hsig : s.env.sig = List.replicate (n + 1) false ++ sig) : Answers s [c] sig s.env.rx := by
  have ha : c.answered = false := by simp [Turn.answered, hr]
  refine ⟨by simpa using .inl ⟨hr, hnone⟩, ?_, by simp [hnone], .inr ⟨n, by rw [hcounts]; rfl, hn.le, fun _ => hn.symm⟩, trivial⟩
  simpa [Turn.levels, ha, hn, List.replicate_succ'] using hsig

/-- A CMD that is the only run of the script, as the host sees it. -/
theorem exec_cmd_turn {s : State} {opcode cap : Byte} {payload received : List Byte} {hold : Bool} {n : Nat} {r : Reply}
    {sig : List Bool} {rx : List Byte} (hidle : s.seq = .idle) (hmode : s.mode ≠ .calibrating) (hlen : payload.length ≤ 254)
    (h : Answers s [Command.turn s.cfg ⟨opcode, payload, cap, hold⟩ n received r] sig rx) :
    ∃ t, exec (.cmd opcode payload cap hold) s = .next t ∧ t.res = Result.ofReply r ∧ t.cs = (!r.isErr && hold) ∧
      t.env.rx = rx ∧ t.env.sig = sig ∧ t.env.counts = s.env.counts.tail ∧ Idle t ∧ SameRegs s t := by
  obtain ⟨u, ignored, hrun, hbus, hcs, hres, -, -, hleft⟩ := runCmd_turn _ _ _ _ h
  have hcounts := runCmd_counts ⟨opcode, payload, cap, hold⟩ s
  rw [hrun] at hcounts
  exact ⟨_, exec_cmd_of_run hidle hmode hlen hrun, rfl, hcs, hleft.done.1, hleft.done.2, hcounts, ret_idle _ _ _,
    hbus.sameRegs.ret _ _⟩

theorem exec_waitresp_turn {s : State} {tmo : Half} {received : List Byte} {hold : Bool} {n : Nat} {r : Reply}
    {sig : List Bool} {rx : List Byte} (hidle : s.seq = .idle) (hmode : s.mode ≠ .calibrating)
    (h : Answers s [waitTurn s.cfg tmo hold n received r] sig rx) :
    ∃ t, exec (.waitresp tmo hold) s = .next t ∧ t.res = Result.ofReply r ∧ t.cs = (!r.isErr && hold) ∧
      t.env.rx = rx ∧ t.env.sig = sig ∧ t.env.counts = s.env.counts.tail ∧ Idle t ∧ SameRegs s t := by
  obtain ⟨u, hrun, hbus, hcs, hres, -, hleft⟩ := waitResp_turn _ _ _ _ _ h
  have hcounts := waitResp_counts tmo hold s
  rw [hrun] at hcounts
  exact ⟨_, exec_waitresp_of_run hidle hmode hrun, rfl, hcs, hleft.done.1, hleft.done.2, hcounts, ret_idle _ _ _,
    hbus.sameRegs.ret _ _⟩

/-- Settles O16: the pending bytes' parse is the one run of the script. -/
theorem cmdParsesTheResponse : Obligations.CmdParsesTheResponse := by
  intro s opcode cap payload hold k n sig counts r rest hidle hmode hlen hcounts hk hsig hp
  obtain ⟨used, hrx, hp⟩ := hp.consumed
  obtain ⟨t, h⟩ := exec_cmd_turn (hold := hold) (n := k) (received := used) (r := r) hidle hmode hlen
    (answers_of_parses hp hcounts hk hsig hrx)
  rw [hcounts] at h
  exact ⟨t, h⟩

/-- Settles O17: the same for the wait. -/
theorem waitrespParsesTheResponse : Obligations.WaitrespParsesTheResponse := by
  intro s tmo hold k n sig counts r rest hidle hmode hcounts hk hsig hp
  obtain ⟨used, hrx, hp⟩ := hp.consumed
  obtain ⟨t, h⟩ := exec_waitresp_turn (tmo := tmo) (hold := hold) (n := k) (received := used) (r := r) hidle hmode
    (answers_of_parses hp hcounts hk hsig hrx)
  rw [hcounts] at h
  exact ⟨t, h⟩

/-- Settles O18: silence is a run of the script that ends in `Timeout`. -/
theorem silentChipGivesTimeout : Obligations.SilentChipGivesTimeout := by
  intro s n sig counts hidle hmode hcounts hsig
  refine ⟨fun opcode cap payload hold hlen => ?_, fun tmo hold => ?_⟩
  · obtain ⟨t, hexec, hres, hcs, hrx, hs, -, hidle, hregs⟩ := exec_cmd_turn (hold := hold) (cap := cap) (opcode := opcode) (n := n)
      (received := []) (r := .err .timeout) hidle hmode hlen (answers_of_silence rfl rfl rfl hcounts hsig)
    exact ⟨t, hexec, hres, hcs, hrx, hs, hidle, hregs⟩
  · obtain ⟨t, hexec, hres, hcs, hrx, hs, -, hidle, hregs⟩ := exec_waitresp_turn (tmo := tmo) (hold := hold) (n := n)
      (received := []) (r := .err .timeout) hidle hmode (answers_of_silence rfl rfl rfl hcounts hsig)
    exact ⟨t, hexec, hres, hcs, hrx, hs, hidle, hregs⟩

/-! ## Every event of a command -/

/-- The request of a CMD on a chip whose echo is scripted. -/
theorem sentCmd_scripted (c : Command) {s : State} {ignored echo : List Byte} (h : s.env.echo = ignored ++ echo)
    (hl : ignored.length = c.payload.length + 3) : sentCmd c s = { s with
      cs := true, t := (latchCmd c.opcode c.payload c.cap c.hold s).t, env := { s.env with echo := echo },
      trace := sentEvents (requestFrame c.opcode c.payload) ignored ++ .sel :: s.trace } :=
  sendBytes_scripted (requestFrame c.opcode c.payload) ignored echo _ h hl

/-- On a scripted echo the run's events are known to the last byte. -/
theorem runCmd_turn_trace (c : Command) {n : Nat} {received : List Byte} {r : Reply} {s : State} {turns : List Turn}
    {sig : List Bool} {rx ignored echo : List Byte} (h : Answers s (c.turn s.cfg n received r :: turns) sig rx)
    (hecho : s.env.echo = ignored ++ echo) (hl : ignored.length = c.payload.length + 3) :
    (runCmd c s).2.trace = (c.turn s.cfg n received r).events s.cfg ignored ++ s.trace := by
  have hsent := sentCmd_scripted c hecho hl
  obtain ⟨hv, hs, hr, ht⟩ := h.first
  obtain ⟨env, tr, hrec, -⟩ := receive_turn (c.turn s.cfg n received r) hv (s := sentCmd c s)
    (by rw [hsent]; exact hs) (by rw [hsent]; exact hr) (by rw [hsent]; exact ht)
  have hreply : (receive c.opcode c.cap s.cfg.tCmd (sentCmd c s)).1 = r := congrArg Prod.fst hrec
  have htrace : (receive c.opcode c.cap s.cfg.tCmd (sentCmd c s)).2.trace = recvEvents (sentCmd c s).cfg.dummy received ++
      (c.turn s.cfg n received r).polls ++ .arm s.cfg.tCmd :: (sentCmd c s).trace := congrArg (·.2.trace) hrec
  rw [runCmd_eq, finish_trace, hreply, htrace, hsent]
  simp [Turn.events, Command.turn]

theorem runCmd_echo (c : Command) {s : State} {ignored echo : List Byte} (hecho : s.env.echo = ignored ++ echo)
    (hl : ignored.length = c.payload.length + 3) : (runCmd c s).2.env.echo = echo := by
  obtain ⟨_, _, harm, -⟩ := arm_any s.cfg.tCmd (sentCmd c s)
  rw [runCmd_eq, (finish_grows _ _).echo, (receive_grows _ _ _ _).echo, harm, sentCmd_scripted c hecho hl]

/-- Settles O19: the run of the script, and its events on the scripted echo. -/
theorem cmdTraceOnAnsweringChip : Obligations.CmdTraceOnAnsweringChip := by
  intro s opcode cap payload reply ignored echo hold sig rx hidle hmode hlen hans hecho hl
  have htrace := runCmd_turn_trace ⟨opcode, payload, cap, hold⟩ hans hecho hl
  have hleftEcho := runCmd_echo ⟨opcode, payload, cap, hold⟩ hecho hl
  obtain ⟨u, -, hrun, hbus, hcs, -, -, -, hleft⟩ := runCmd_turn _ _ _ _ hans
  rw [hrun] at htrace hleftEcho
  refine ⟨_, exec_cmd_of_run hidle hmode hlen hrun, rfl, hcs, hleft.done.1, hleft.done.2, hleftEcho, ret_idle _ _ _,
    hbus.sameRegs.ret _ _, ?_⟩
  rw [ret_trace, htrace]
  cases hold <;> simp [Turn.events, Command.turn, Turn.polls, Turn.answered, Result.ofReply]

/-- Settles O20: the sent half of a command and the arming of the timer, which the move to `WAIT` leaves alone. -/
theorem requestFrameGoesOutAndWaits : Obligations.RequestFrameGoesOutAndWaits := by
  intro s opcode payload hidle hmode hlen
  obtain ⟨ignored, echo, draws, hl, hsent⟩ := sentCmd_any ⟨opcode, payload, 0xFF, false⟩ s
  obtain ⟨timer, draws2, harm, -⟩ := arm_any s.cfg.tCmd ((sentCmd ⟨opcode, payload, 0xFF, false⟩ s).setOp .cmd)
  have hexec : exec (.reqFrame opcode payload) s =
      .next ((arm s.cfg.tCmd ((sentCmd ⟨opcode, payload, 0xFF, false⟩ s).setOp .cmd)).goTo .wait) :=
    exec_of_idle hidle (decide_eq_true hlen) (fun _ => hmode) nofun
  refine ⟨_, ignored, hexec, ?_⟩
  rw [harm, hsent]
  exact ⟨rfl, rfl, rfl, rfl, rfl, rfl, rfl, rfl, rfl, ⟨rfl, rfl, rfl, rfl, rfl, rfl, rfl, rfl, rfl, rfl, rfl⟩, hl, rfl⟩

/-- Settles O12: with chip-select asserted the row is the exchange of `Xchg`, which draws one byte. -/
theorem exchangeConsumesOneByte : Obligations.ExchangeConsumesOneByte := by
  intro s out
  have hexec (hcs : s.cs = true) : exec (.xchg out) s = .next (xchg .receiving out s).2 := if_pos hcs
  refine ⟨fun b rest hcs hrx => ?_, fun hcs => ⟨_, (xchg .receiving out s).1, hexec hcs, ?_, ?_⟩, fun hcs => ?_⟩
  · rw [hexec hcs]
    simp [xchg, chipByte, hrx, State.setEnv, State.emit]
  · exact congrArg (_ :: ·) (chipByte_trace .receiving s)
  · exact (chipByte_link .receiving s).trans rfl
  · exact if_neg (by simp [hcs])

end Sys2Proof.Machine
end

section
/-! PROOFS. The composite operations as sequences of framing operations: what they leave alone, and what they do on scripted
answers (43_session, 44_calibration). -/

namespace Sys2Proof.Machine

/-! ## Relations that every framing operation keeps -/

/-- A preorder on states that holds across every framing operation and across the moves between two of them. -/
structure BusRel (R : State → State → Prop) : Prop where
  refl : ∀ s, R s s
  trans : ∀ {a b c}, R a b → R b c → R a c
  runCmd : ∀ c s, R s (runCmd c s).2
  waitResp : ∀ tmo hold s, R s (waitResp tmo hold s).2
  startAttempt : ∀ a s, R s (startAttempt a s)
  retry : ∀ s, R s (delay .retry s)

/-- A preorder that any change of the link, the result and the transient registers keeps. -/
theorem BusRel.of_bus {R : State → State → Prop} (refl : ∀ s, R s s) (trans : ∀ {a b c}, R a b → R b c → R a c)
    (bus : ∀ {s t}, BusOnly s t → R s t) : BusRel R :=
  ⟨refl, trans, fun c s => bus (runCmd_bus c s), fun tmo hold s => bus (waitResp_bus tmo hold s),
    fun a s => bus (startAttempt_parse a s).bus, fun _ => bus rfl⟩

section
variable {R : State → State → Prop} (hR : BusRel R)
include hR

theorem BusRel.regStart (hstore : ∀ p s, R s (storeOffset p s)) (s : State) : R s (regStart s).2 := by
  have hcmd := hR.runCmd (cRegStart s.cfg) s
  unfold Machine.regStart
  dsimp only
  split
  · exact hR.trans hcmd (hstore _ _)
  · exact hcmd

theorem BusRel.disableTouch (s : State) : R s (disableTouchWithCancelRetry s).2 := by
  have hcmd := hR.runCmd (cDisableTouch s.cfg) s
  unfold disableTouchWithCancelRetry
  dsimp only
  split
  · exact hR.trans (hR.trans hcmd (hR.retry _)) (hR.runCmd _ _)
  · exact hcmd

theorem BusRel.initAttempt (hstore : ∀ p s, R s (storeOffset p s)) (s : State) : R s (initAttempt s).2 := by
  have hd := hR.disableTouch s
  have ho := hR.trans hd (hR.regStart hstore _)
  unfold Machine.initAttempt
  dsimp only
  split_ifs
  · exact hd
  · exact ho
  · exact hR.trans ho (hR.runCmd _ _)

theorem BusRel.calStartAttempt (hstore : ∀ p s, R s (storeOffset p s)) (s : State) : R s (calStartAttempt s).2 := by
  have hd := hR.runCmd (cDisableTouch s.cfg) s
  have ho := hR.trans hd (hR.regStart hstore _)
  have hw := hR.trans ho (hR.runCmd (cWriteInset (Machine.regStart (Machine.runCmd (cDisableTouch s.cfg) s).2).2) _)
  unfold Machine.calStartAttempt
  dsimp only
  split_ifs
  · exact hd
  · exact ho
  · exact hw
  · exact hR.trans hw (hR.runCmd _ _)

theorem BusRel.attempts {body : State → Bool × State} (hbody : ∀ s, R s (body s).2) (n a : Nat) (s : State) :
    R s (attempts body n a s).2 := by
  induction n generalizing a s with
  | zero => exact hR.refl s
  | succ n ih =>
    have hfirst := hR.trans (hR.startAttempt (BitVec.ofNat 2 a) s) (hbody _)
    unfold Machine.attempts
    dsimp only
    split
    · exact hfirst
    · exact hR.trans hfirst (ih _ _)

theorem BusRel.dumpRegisters (hsink : ∀ v s, R s (s.sinkPut v)) (regs : List Byte) (s : State) : R s (dumpRegisters regs s) := by
  induction regs generalizing s with
  | nil => exact hR.refl s
  | cons reg rest ih => exact hR.trans (hR.trans (hR.runCmd _ s) (hsink _ _)) (ih _)

theorem BusRel.regDump (hsink : ∀ v s, R s (s.sinkPut v)) (s : State) : R s (regDump s) := by
  unfold Machine.regDump
  split
  · exact hR.trans (hR.trans (hR.trans (hsink _ s) (hR.runCmd _ _)) (hsink _ _)) (hR.dumpRegisters hsink _ _)
  · exact hR.refl s

theorem BusRel.setReg (reg value : Byte) (s : State) : R s (setReg reg value s).2 := by
  unfold Machine.setReg
  split
  · exact hR.runCmd _ s
  · exact hR.refl s

theorem BusRel.calStart (hstore : ∀ p s, R s (storeOffset p s)) (hpoint : ∀ i s, R s (s.setPointIndex i)) (s : State) :
    R s (calStart s).2 := by
  unfold Machine.calStart
  split
  · exact hR.trans (hR.attempts (fun a => hR.trans (hpoint _ a) (hR.calStartAttempt hstore _)) _ _ s) (hpoint _ _)
  · exact hR.refl s

theorem BusRel.calFinish (hfail : ∀ s, R s (calFail s)) (tmo : Half) (s : State) : R s (calFinish tmo s).2 := by
  have hwait := hR.waitResp tmo true s
  have henable := hR.trans hwait (hR.runCmd (cEnableTouch s.cfg) _)
  unfold Machine.calFinish
  dsimp only
  split_ifs
  · exact hR.trans hwait (hfail _)
  · exact hR.trans henable (hfail _)
  · exact henable

theorem BusRel.calWait (hfail : ∀ s, R s (calFail s)) (hpoint : ∀ i s, R s (s.setPointIndex i)) (tmo : Half) (s : State) :
    R s (calWait tmo s).2 := by
  have hwait := hR.waitResp tmo true s
  unfold Machine.calWait
  dsimp only
  split_ifs
  · exact hR.trans hwait (hfail _)
  · exact hR.trans hwait (hpoint _ _)
  · exact hR.trans (hR.trans hwait (hpoint _ _)) (hR.calFinish hfail _ _)
  · exact hfail s

end

theorem attempts_of_true {body : State → Bool × State} {n a : Nat} {s t : State}
    (h : body (startAttempt (BitVec.ofNat 2 a) s) = (true, t)) : attempts body (n + 1) a s = (true, t) := by
  simp [attempts, h]

theorem attempts_of_false {body : State → Bool × State} {n a : Nat} {s t : State}
    (h : body (startAttempt (BitVec.ofNat 2 a) s) = (false, t)) : attempts body (n + 1) a s = attempts body n (a + 1) t := by
  simp [attempts, h]

/-- What every attempt ensures, a retry policy ensures: its last attempt did. -/
theorem attempts_ensures {body : State → Bool × State} {P : Bool → State → Prop} (hbody : ∀ s, P (body s).1 (body s).2) (n a : Nat)
    (s : State) : P (attempts body (n + 1) a s).1 (attempts body (n + 1) a s).2 := by
  induction n generalizing a s with
  | zero =>
    have h := hbody (startAttempt (BitVec.ofNat 2 a) s)
    rcases hb : body (startAttempt (BitVec.ofNat 2 a) s) with ⟨_ | _, t⟩ <;> rw [hb] at h
    · rw [attempts_of_false hb]; exact h
    · rw [attempts_of_true hb]; exact h
  | succ n ih =>
    have h := hbody (startAttempt (BitVec.ofNat 2 a) s)
    rcases hb : body (startAttempt (BitVec.ofNat 2 a) s) with ⟨_ | _, t⟩ <;> rw [hb] at h
    · rw [attempts_of_false hb]; exact ih _ _
    · rw [attempts_of_true hb]; exact h

/-! ## The registers that the composite operations write -/

/-- Beside what a framing operation changes, at most the offset differs. -/
def OffsetOnly (s t : State) : Prop := BusOnly { s with offset := t.offset } t

/-- Beside what a framing operation changes, at most the offset and the index differ. -/
def CalOnly (s t : State) : Prop := BusOnly { s with offset := t.offset, pointIndex := t.pointIndex } t

/-- Beside what a framing operation changes, at most the index differs. -/
def PointOnly (s t : State) : Prop := BusOnly { s with pointIndex := t.pointIndex } t

/-- Beside what a framing operation changes, at most the sink differs. -/
def SinkOnly (s t : State) : Prop := BusOnly { s with sink := t.sink } t

theorem BusOnly.offsetOnly {s t : State} (h : BusOnly s t) : OffsetOnly s t := by
  cases s; cases t; simp_all [BusOnly, OffsetOnly]

theorem BusOnly.calOnly {s t : State} (h : BusOnly s t) : CalOnly s t := by
  cases s; cases t; simp_all [BusOnly, CalOnly]

theorem BusOnly.pointOnly {s t : State} (h : BusOnly s t) : PointOnly s t := by
  cases s; cases t; simp_all [BusOnly, PointOnly]

theorem BusOnly.sinkOnly {s t : State} (h : BusOnly s t) : SinkOnly s t := by
  cases s; cases t; simp_all [BusOnly, SinkOnly]

theorem OffsetOnly.trans {a b c : State} (h1 : OffsetOnly a b) (h2 : OffsetOnly b c) : OffsetOnly a c := by
  cases a; cases b; cases c; simp_all [BusOnly, OffsetOnly]

theorem CalOnly.trans {a b c : State} (h1 : CalOnly a b) (h2 : CalOnly b c) : CalOnly a c := by
  cases a; cases b; cases c; simp_all [BusOnly, CalOnly]

theorem PointOnly.trans {a b c : State} (h1 : PointOnly a b) (h2 : PointOnly b c) : PointOnly a c := by
  cases a; cases b; cases c; simp_all [BusOnly, PointOnly]

theorem SinkOnly.trans {a b c : State} (h1 : SinkOnly a b) (h2 : SinkOnly b c) : SinkOnly a c := by
  cases a; cases b; cases c; simp_all [BusOnly, SinkOnly]

theorem busRel_busOnly : BusRel BusOnly := .of_bus BusOnly.refl BusOnly.trans id
theorem busRel_offsetOnly : BusRel OffsetOnly := .of_bus (fun s => (BusOnly.refl s).offsetOnly) OffsetOnly.trans BusOnly.offsetOnly
theorem busRel_calOnly : BusRel CalOnly := .of_bus (fun s => (BusOnly.refl s).calOnly) CalOnly.trans BusOnly.calOnly
theorem busRel_pointOnly : BusRel PointOnly := .of_bus (fun s => (BusOnly.refl s).pointOnly) PointOnly.trans BusOnly.pointOnly
theorem busRel_sinkOnly : BusRel SinkOnly := .of_bus (fun s => (BusOnly.refl s).sinkOnly) SinkOnly.trans BusOnly.sinkOnly

theorem storeOffset_offsetOnly (p : List Byte) (s : State) : OffsetOnly s (storeOffset p s) := by
  cases p <;> rfl

theorem OffsetOnly.calOnly {s t : State} (h : OffsetOnly s t) : CalOnly s t := by
  cases s; cases t; simp_all [BusOnly, OffsetOnly, CalOnly]

@[simp] theorem storeOffset_cs (p : List Byte) (s : State) : (storeOffset p s).cs = s.cs := by cases p <;> rfl
@[simp] theorem storeOffset_res (p : List Byte) (s : State) : (storeOffset p s).res = s.res := by cases p <;> rfl
@[simp] theorem storeOffset_trace (p : List Byte) (s : State) : (storeOffset p s).trace = s.trace := by cases p <;> rfl
@[simp] theorem storeOffset_cfg (p : List Byte) (s : State) : (storeOffset p s).cfg = s.cfg := by cases p <;> rfl
@[simp] theorem storeOffset_t (p : List Byte) (s : State) : (storeOffset p s).t = s.t := by cases p <;> rfl
@[simp] theorem storeOffset_seq (p : List Byte) (s : State) : (storeOffset p s).seq = s.seq := by cases p <;> rfl
@[simp] theorem storeOffset_op (p : List Byte) (s : State) : (storeOffset p s).op = s.op := by cases p <;> rfl

theorem storeOffset_env (p : List Byte) (s : State) :
    (storeOffset p s).env = { s.env with draws := (storeOffset p s).env.draws } := by cases p <;> rfl

/-! ## Chip-select and the result -/

theorem regStart_of_ok {s u : State} {p : List Byte} (h : runCmd (cRegStart s.cfg) s = (.ok p, u)) :
    regStart s = (.ok p, storeOffset p u) := by
  simp only [regStart, h]

theorem regStart_of_err {s u : State} {e : ProtocolError} (h : runCmd (cRegStart s.cfg) s = (.err e, u)) :
    regStart s = (.err e, u) := by
  simp only [regStart, h]

/-- A command that does not ask to hold releases chip-select. -/
theorem runCmd_releases {c : Command} (h : c.hold = false) (s : State) : (runCmd c s).2.cs = false := by
  rw [runCmd_cs, h, Bool.and_false]

theorem runCmd_res (c : Command) (s : State) : (runCmd c s).2.res = Result.ofReply (runCmd c s).1 := rfl

theorem regStart_cs (s : State) : (regStart s).2.cs = false := by
  have h := runCmd_releases (c := cRegStart s.cfg) rfl s
  rcases hrun : runCmd (cRegStart s.cfg) s with ⟨p | e, u⟩ <;> rw [hrun] at h
  · rw [regStart_of_ok hrun]
    exact (storeOffset_cs p u).trans h
  · rw [regStart_of_err hrun]
    exact h

theorem regStart_res (s : State) : (regStart s).2.res = Result.ofReply (regStart s).1 := by
  have h := runCmd_res (cRegStart s.cfg) s
  rcases hrun : runCmd (cRegStart s.cfg) s with ⟨p | e, u⟩ <;> rw [hrun] at h
  · rw [regStart_of_ok hrun]
    exact (storeOffset_res p u).trans h
  · rw [regStart_of_err hrun]
    exact h

theorem regStart_offsetOnly (s : State) : OffsetOnly s (regStart s).2 := busRel_offsetOnly.regStart storeOffset_offsetOnly s

theorem disableTouch_cs (s : State) : (disableTouchWithCancelRetry s).2.cs = false := by
  unfold disableTouchWithCancelRetry
  dsimp only
  split <;> exact runCmd_releases rfl _

theorem initAttempt_cs (s : State) : (initAttempt s).2.cs = false := by
  unfold initAttempt
  dsimp only
  split_ifs
  · exact disableTouch_cs s
  · exact regStart_cs _
  · exact runCmd_releases rfl _

/-- An attempt of CALSTART holds chip-select exactly when it succeeds. -/
theorem calStartAttempt_cs (s : State) : (calStartAttempt s).2.cs = (calStartAttempt s).1 := by
  unfold calStartAttempt
  dsimp only
  split_ifs
  · exact runCmd_releases rfl _
  · exact regStart_cs _
  · exact runCmd_releases rfl _
  · rw [runCmd_cs]
    exact Bool.and_true _

/-! ## Conversations -/

theorem Conversation.append {p : Params} {a b : List Turn} {ea eb : List Event} (ha : Conversation p a ea)
    (hb : Conversation p b eb) : Conversation p (a ++ b) (eb ++ ea) := by
  induction ha with
  | nil => simpa using hb
  | cons c turns ignored later all rest ih =>
    rw [← List.append_assoc]
    exact .cons c _ ignored _ all ih

/-- From `s` to `t` these runs took place, one after another, and the answers of the later ones are left. -/
structure Ran (p : Params) (s t : State) (turns later : List Turn) (sig : List Bool) (rx : List Byte) : Prop where
  talk : ∃ events, Conversation p turns events ∧ t.trace = events ++ s.trace
  left : Answers t later sig rx
  cfg : t.cfg = p

/-- Only the scripts count for the answers left. -/
theorem Answers.of_scripts {s t : State} {turns : List Turn} {sig : List Bool} {rx : List Byte} (h : Answers s turns sig rx)
    (hs : t.env.sig = s.env.sig) (hr : t.env.rx = s.env.rx) (hc : t.env.counts = s.env.counts) : Answers t turns sig rx := by
  unfold Answers
  rw [hs, hr, hc]
  exact h

theorem Ran.trans {p : Params} {s u t : State} {a b later : List Turn} {sig : List Bool} {rx : List Byte}
    (h1 : Ran p s u a (b ++ later) sig rx) (h2 : Ran p u t b later sig rx) : Ran p s t (a ++ b) later sig rx := by
  obtain ⟨ea, hca, hta⟩ := h1.talk
  obtain ⟨eb, hcb, htb⟩ := h2.talk
  exact ⟨⟨eb ++ ea, hca.append hcb, by rw [htb, hta, List.append_assoc]⟩, h2.left, h2.cfg⟩

/-- The store of the offset is no event and takes no answer. -/
theorem Ran.storeOffset {p : Params} {s t : State} {turns later : List Turn} {sig : List Bool} {rx : List Byte}
    (h : Ran p s t turns later sig rx) (payload : List Byte) : Ran p s (storeOffset payload t) turns later sig rx := by
  obtain ⟨events, hc, ht⟩ := h.talk
  refine ⟨⟨events, hc, by rw [storeOffset_trace, ht]⟩, h.left.of_scripts ?_ ?_ ?_, by rw [storeOffset_cfg, h.cfg]⟩
  all_goals rw [storeOffset_env]

/-- A command on its run of the script. -/
theorem runCmd_ran (c : Command) {p : Params} {n : Nat} {received : List Byte} {r : Reply} {s : State} {later : List Turn}
    {sig : List Bool} {rx : List Byte} (hp : s.cfg = p) (h : Answers s (c.turn p n received r :: later) sig rx) :
    ∃ t, runCmd c s = (r, t) ∧ BusOnly s t ∧ Ran p s t [c.turn p n received r] later sig rx := by
  subst hp
  obtain ⟨t, ignored, hrun, hbus, -, -, hl, htrace, hleft⟩ := runCmd_turn c n received r h
  exact ⟨t, hrun, hbus, ⟨_, .single _ _ ignored hl, htrace⟩, hleft, hbus.cfg⟩

/-- A resend's events are the command's after `DLY(T_RETRY)` (R192). -/
theorem Turn.events_retry {c : Turn} (h : c.retry = false) (p : Params) (ignored : List Byte) :
    ({ c with retry := true } : Turn).events p ignored = c.events p ignored ++ [.dly .retry] := by
  simp only [Turn.events, h, Bool.false_eq_true, if_false, if_true, List.append_nil]
  rfl

/-- The same after the delay of a resend (R192), which is the run's first event. -/
theorem runCmd_retry_ran (c : Command) {p : Params} {n : Nat} {received : List Byte} {r : Reply} {s : State} {later : List Turn}
    {sig : List Bool} {rx : List Byte} (hp : s.cfg = p)
    (h : Answers s ({ c.turn p n received r with retry := true } :: later) sig rx) :
    ∃ t, runCmd c (delay .retry s) = (r, t) ∧ BusOnly s t ∧
      Ran p s t [{ c.turn p n received r with retry := true }] later sig rx := by
  subst hp
  have hv := h.first.1
  have hans : Answers (delay .retry s) (c.turn s.cfg n received r :: later) sig rx := by
    refine ⟨fun d hd => ?_, h.2.1, h.2.2.1, h.2.2.2⟩
    rcases List.mem_cons.1 hd with rfl | hd
    · exact hv
    · exact h.1 d (List.mem_cons_of_mem _ hd)
  obtain ⟨t, ignored, hrun, hbus, -, -, hl, htrace, hleft⟩ := runCmd_turn c n received r (s := delay .retry s) hans
  refine ⟨t, hrun, (show BusOnly s (delay .retry s) from rfl).trans hbus, ⟨_, .single _ _ ignored hl, ?_⟩, hleft, hbus.cfg⟩
  rw [htrace, Turn.events_retry rfl, List.append_assoc]
  rfl

theorem waitResp_ran {tmo : Half} {hold : Bool} {p : Params} {n : Nat} {received : List Byte} {r : Reply} {s : State}
    {later : List Turn} {sig : List Bool} {rx : List Byte} (hp : s.cfg = p)
    (h : Answers s (waitTurn p tmo hold n received r :: later) sig rx) :
    ∃ t, waitResp tmo hold s = (r, t) ∧ BusOnly s t ∧ Ran p s t [waitTurn p tmo hold n received r] later sig rx := by
  subst hp
  obtain ⟨t, hrun, hbus, -, -, htrace, hleft⟩ := waitResp_turn tmo hold n received r h
  exact ⟨t, hrun, hbus, ⟨_, .single _ _ [] rfl, htrace⟩, hleft, hbus.cfg⟩

/-! ## The offset -/

/-- What the caller of REG_START has to store: the payload of an accepted response (R174). -/
def Reply.stored : Reply → List (List Byte)
  | .ok p => [p]
  | .err _ => []

theorem OffsetAfter.append {a b c : Byte} {x y : List (List Byte)} (h1 : OffsetAfter a x b) (h2 : OffsetAfter b y c) :
    OffsetAfter a (x ++ y) c := by
  cases hy : y.getLast? with
  | none =>
    have hnil : y = [] := by simpa using hy
    simp only [OffsetAfter, hnil, List.getLast?_nil] at h2
    rw [hnil, h2, List.append_nil]
    exact h1
  | some p =>
    have hlast : (x ++ y).getLast? = some p := by simp [List.getLast?_append, hy]
    unfold OffsetAfter at h2 ⊢
    rw [hlast]
    rw [hy] at h2
    cases p with
    | nil => exact trivial
    | cons b rest => exact h2

theorem storeOffset_after (payload : List Byte) (old : Byte) (s : State) :
    OffsetAfter old [payload] (storeOffset payload s).offset := by
  cases payload with
  | nil => exact trivial
  | cons b rest => exact rfl

/-- REG_START with its caller's store on its run of the script. -/
theorem regStart_ran {p : Params} {n : Nat} {received : List Byte} {r : Reply} {s : State} {later : List Turn}
    {sig : List Bool} {rx : List Byte} (hp : s.cfg = p) (h : Answers s ((cRegStart p).turn p n received r :: later) sig rx) :
    ∃ t, regStart s = (r, t) ∧ OffsetAfter s.offset r.stored t.offset ∧
      Ran p s t [(cRegStart p).turn p n received r] later sig rx := by
  subst hp
  obtain ⟨u, hrun, hbus, hran⟩ := runCmd_ran (cRegStart s.cfg) rfl h
  cases r with
  | ok payload => exact ⟨_, regStart_of_ok hrun, storeOffset_after payload _ u, hran.storeOffset payload⟩
  | err e => exact ⟨u, regStart_of_err hrun, hbus.offset, hran⟩

/-! ## The retry policy -/

/-- If one attempt does what its runs say, so does the policy of at most two (R191, R212, R259). -/
theorem attempts_ran {attempt : List Turn → Bool → List (List Byte) → Prop} {body : State → Bool × State} {p : Params}
    {sig : List Bool} {rx : List Byte}
    (hbody : ∀ {s turns b stored later}, s.cfg = p → attempt turns b stored → Answers s (turns ++ later) sig rx →
      ∃ t, body s = (b, t) ∧ OffsetAfter s.offset stored t.offset ∧ Ran p s t turns later sig rx)
    {s : State} {turns : List Turn} {b : Bool} {stored : List (List Byte)} (hp : s.cfg = p)
    (h : AtMostTwo attempt turns b stored) (hans : Answers s turns sig rx) :
    ∃ t, attempts body Config.maxAttempts 1 s = (b, t) ∧ OffsetAfter s.offset stored t.offset ∧ Ran p s t turns [] sig rx := by
  have hbody' {a : BitVec 2} {s : State} {turns b stored later} (hp : s.cfg = p) (h : attempt turns b stored)
      (hans : Answers s (turns ++ later) sig rx) :
      ∃ t, body (startAttempt a s) = (b, t) ∧ OffsetAfter s.offset stored t.offset ∧ Ran p s t turns later sig rx := by
    obtain ⟨t, hrun, hoff, hran⟩ := hbody (s := startAttempt a s) hp h hans
    exact ⟨t, hrun, hoff, hran.talk, hran.left, hran.cfg⟩
  cases h with
  | first turns stored h =>
    obtain ⟨t, hrun, hoff, hran⟩ := hbody' (a := 1) (later := []) hp h (by simpa using hans)
    exact ⟨t, attempts_of_true hrun, hoff, hran⟩
  | second turns turns2 b stored stored2 h h2 =>
    obtain ⟨u, hrun, hoff, hran⟩ := hbody' (a := 1) hp h hans
    obtain ⟨t, hrun2, hoff2, hran2⟩ := hbody' (a := 2) (later := []) hran.cfg h2 (by simpa using hran.left)
    refine ⟨t, (attempts_of_false hrun).trans ?_, hoff.append hoff2, Ran.trans (by simpa using hran) hran2⟩
    cases b with
    | false => exact attempts_of_false hrun2
    | true => exact attempts_of_true hrun2

end Sys2Proof.Machine
end

section
/-! PROOFS. The eight wire commands (42_wire_commands). -/

namespace Sys2Proof.Machine

/-! ## A wire command's row -/

/-- The CMD that a wire command is (R170 to R177). -/
def wireCommand (p : Params) : Instr → Option Command
  | .getVersion => some (cGetVersion p)
  | .enableTouch => some (cEnableTouch p)
  | .disableTouch => some (cDisableTouch p)
  | .calibrateMode calType => some (cCalibrateMode p calType)
  | .regStart => some (cRegStart p)
  | .regRead addr count => some (cRegRead p addr count)
  | .regWrite addr data => some (cRegWrite p addr data)
  | .eepromWrite => some (cEepromWrite p)
  | _ => none

/-- What the row makes of its command's reply: the caller's store of the offset for REG_START, the return to the host for
EEPROM_WRITE, nothing for the others (log 17). -/
def wireReturn (i : Instr) (r : Reply) (u : State) : State :=
  match i, r with
  | .regStart, .ok p => storeOffset p u
  | .eepromWrite, r => ret .cmd (Result.ofReply r) u
  | _, _ => u

theorem performed_wire {i : Instr} {c : Command} {r : Reply} {s u : State} (hc : wireCommand s.cfg i = some c)
    (hrun : runCmd c s = (r, u)) : performed i s = wireReturn i r u := by
  cases i with
  | regStart =>
    cases hc
    cases r with
    | ok p => exact congrArg Prod.snd (regStart_of_ok hrun)
    | err e => exact congrArg Prod.snd (regStart_of_err hrun)
  | eepromWrite =>
    cases hc
    have hhost : performed .eepromWrite s =
        ret .cmd (Result.ofReply (runCmd (cEepromWrite s.cfg) s).1) (runCmd (cEepromWrite s.cfg) s).2 := rfl
    rw [hhost, hrun]
    rfl
  | getVersion | enableTouch | disableTouch | calibrateMode | regRead | regWrite =>
    cases hc
    exact congrArg Prod.snd hrun
  | _ => cases hc

/-- The eight commands are the request frames that are not the generic one. -/
theorem exists_wireCommand {i : Instr} (p : Params) (hch : i.channel = some .wire) (hreq : ∀ opcode payload, i ≠ .reqFrame opcode payload) :
    ∃ c, wireCommand p i = some c := by
  cases i with
  | reqFrame opcode payload => exact absurd rfl (hreq opcode payload)
  | getVersion | enableTouch | disableTouch | calibrateMode | regStart | regRead | regWrite | eepromWrite => exact ⟨_, rfl⟩
  | _ => cases hch

theorem wireCommand_channel {p : Params} {i : Instr} {c : Command} (h : wireCommand p i = some c) : i.channel = some .wire := by
  cases i with
  | getVersion | enableTouch | disableTouch | calibrateMode | regStart | regRead | regWrite | eepromWrite => rfl
  | _ => cases h

/-- CALIBRATE_MODE alone asks to hold (R173). -/
theorem wireCommand_hold {p : Params} {i : Instr} {c : Command} (h : wireCommand p i = some c) :
    c.hold = true ↔ ∃ calType, i = .calibrateMode calType := by
  cases i with
  | calibrateMode calType =>
    cases h
    exact ⟨fun _ => ⟨calType, rfl⟩, fun _ => rfl⟩
  | getVersion | enableTouch | disableTouch | regStart | regRead | regWrite | eepromWrite =>
    cases h
    exact ⟨fun hold => (Bool.false_ne_true hold).elim, nofun⟩
  | _ => cases h

theorem exec_wire_of_run {i : Instr} {c : Command} {r : Reply} {s u : State} (hidle : s.seq = .idle) (hmode : s.mode ≠ .calibrating)
    (hwf : i.wellFormed = true) (hc : wireCommand s.cfg i = some c) (hrun : runCmd c s = (r, u)) :
    exec i s = .next (wireReturn i r u) := by
  rw [exec_of_idle hidle hwf (fun _ => hmode), performed_wire hc hrun]
  rintro ⟨out, rfl⟩
  cases hc

/-! ## What the row's return leaves -/

theorem wireReturn_res {i : Instr} {r : Reply} {u : State} (h : u.res = Result.ofReply r) : (wireReturn i r u).res = Result.ofReply r := by
  unfold wireReturn
  split
  · rw [storeOffset_res, h]
  · rfl
  · exact h

theorem wireReturn_cs (i : Instr) (r : Reply) (u : State) : (wireReturn i r u).cs = u.cs := by
  unfold wireReturn
  split
  · exact storeOffset_cs _ u
  all_goals rfl

theorem wireReturn_seq {i : Instr} {r : Reply} {u : State} (h : u.seq = .idle) : (wireReturn i r u).seq = .idle := by
  unfold wireReturn
  split
  · rw [storeOffset_seq, h]
  · rfl
  · exact h

theorem wireReturn_answers {i : Instr} {r : Reply} {u : State} {turns : List Turn} {sig : List Bool} {rx : List Byte}
    (h : Answers u turns sig rx) : Answers (wireReturn i r u) turns sig rx := by
  unfold wireReturn
  split
  · apply h.of_scripts <;> rw [storeOffset_env]
  all_goals exact h

theorem wireReturn_trace (i : Instr) (r : Reply) (u : State) :
    (wireReturn i r u).trace = (if i = .eepromWrite then [.ret .cmd (some (Result.ofReply r))] else []) ++ u.trace := by
  unfold wireReturn
  split
  · simp
  · simp
  · rename_i heeprom _
    rw [if_neg heeprom]
    rfl

theorem wireReturn_offset {i : Instr} (h : i ≠ .regStart) (r : Reply) (u : State) : (wireReturn i r u).offset = u.offset := by
  unfold wireReturn
  split
  · exact absurd rfl h
  all_goals rfl

/-- A change of the offset after an operation that leaves the registers alone. -/
theorem SameRegs.trans_offset {a b c : State} {x : Byte} (h1 : SameRegs a b) (h2 : SameRegs { b with offset := x } c) :
    SameRegs { a with offset := x } c :=
  ⟨h2.1.trans h1.1, h2.2.trans h1.2, h2.3.trans h1.3, h2.4.trans h1.4, h2.5, h2.6.trans h1.6, h2.7.trans h1.7, h2.8.trans h1.8,
   h2.9.trans h1.9, h2.10.trans h1.10, h2.11.trans h1.11⟩

theorem wireReturn_regs (i : Instr) (r : Reply) (u : State) :
    SameRegs { u with offset := (wireReturn i r u).offset } (wireReturn i r u) := by
  unfold wireReturn
  split
  · exact (storeOffset_offsetOnly _ u).sameRegs
  · exact (SameRegs.refl u).ret _ _
  · exact .refl u

/-! ## The obligations -/

/-- A row of the table of R170 to R177 on its run of the script. -/
theorem exec_wire_turn {i : Instr} {c : Command} {n : Nat} {received : List Byte} {r : Reply} {s : State} {sig : List Bool}
    {rx : List Byte} (hidle : s.seq = .idle) (hmode : s.mode ≠ .calibrating) (hwf : i.wellFormed = true)
    (hc : wireCommand s.cfg i = some c) (h : Answers s [c.turn s.cfg n received r] sig rx) :
    ∃ t events, exec i s = .next t ∧ t.res = Result.ofReply r ∧ t.cs = (!r.isErr && c.hold) ∧
      t.env.rx = rx ∧ t.env.sig = sig ∧ t.seq = .idle ∧ SameRegs { s with offset := t.offset } t ∧
      (i ≠ .regStart → t.offset = s.offset) ∧ Conversation s.cfg [c.turn s.cfg n received r] events ∧
      t.trace = (if i = .eepromWrite then [.ret .cmd (some t.res)] else []) ++ events ++ s.trace := by
  obtain ⟨u, ignored, hrun, hbus, hcs, hres, hl, htrace, hleft⟩ := runCmd_turn c n received r h
  have hleft' := (wireReturn_answers (i := i) (r := r) hleft).done
  refine ⟨_, _, exec_wire_of_run hidle hmode hwf hc hrun, wireReturn_res hres, (wireReturn_cs i r u).trans hcs, hleft'.1, hleft'.2,
    wireReturn_seq (hbus.seq.trans hidle), hbus.sameRegs.trans_offset (wireReturn_regs i r u),
    fun hne => (wireReturn_offset hne r u).trans hbus.offset, .single _ _ ignored hl, ?_⟩
  rw [wireReturn_trace, wireReturn_res hres, htrace, List.append_assoc]

/-- Settles O22: each row names its instruction's command. -/
theorem wireCommandsAreTheirCmd : Obligations.WireCommandsAreTheirCmd := by
  intro s calType addr count data i opcode cap payload hold n received r turn sig rx hidle hmode hpos hle hrow hturn hans
  subst hturn
  have hrow' : wireCommand s.cfg i = some ⟨opcode, payload, cap, hold⟩ ∧ i.wellFormed = true := by
    simp only [List.mem_cons, List.not_mem_nil, or_false, Prod.mk.injEq] at hrow
    rcases hrow with h | h | h | h | h | h | h | h
    case inr.inr.inr.inr.inr.inr.inl =>
      obtain ⟨rfl, rfl, rfl, rfl, rfl⟩ := h
      exact ⟨rfl, wellFormed_regWrite_iff.2 ⟨hpos, hle⟩⟩
    all_goals
      obtain ⟨rfl, rfl, rfl, rfl, rfl⟩ := h
      exact ⟨rfl, rfl⟩
  exact exec_wire_turn hidle hmode hrow'.2 hrow'.1 hans

/-- Settles O23: the laws of a command, and the row's return. -/
theorem wireCommandsCompleteOnAnyChip : Obligations.WireCommandsCompleteOnAnyChip := by
  intro s i hidle hmode hwf hch hreq
  obtain ⟨c, hc⟩ := exists_wireCommand s.cfg hch hreq
  have hcs := runCmd_cs c s
  have hbus := runCmd_bus c s
  have hres := runCmd_res c s
  obtain ⟨r, u, hrun⟩ : ∃ r u, runCmd c s = (r, u) := ⟨_, _, rfl⟩
  rw [hrun] at hcs hbus hres
  refine ⟨_, r, exec_wire_of_run hidle hmode hwf hc hrun, wireReturn_res hres, ?_, wireReturn_seq (hbus.seq.trans hidle),
    hbus.sameRegs.trans_offset (wireReturn_regs i r u), fun hne => (wireReturn_offset hne r u).trans hbus.offset⟩
  rw [wireReturn_cs, cs_iff_of_eq hcs, wireCommand_hold hc]

/-- REG_START in an idle engine outside a calibration (R174). -/
theorem exec_regStart_of_run {s t : State} {r : Reply} (hidle : s.seq = .idle) (hmode : s.mode ≠ .calibrating)
    (hrun : regStart s = (r, t)) : exec .regStart s = .next t := by
  rw [exec_of_idle hidle rfl (fun _ => hmode) (by simp), performed, hrun]

/-- REG_START on its run of the script, as its caller sees it. -/
theorem exec_regStart_turn {s : State} {n : Nat} {received : List Byte} {r : Reply} {sig : List Bool} {rx : List Byte}
    (hidle : s.seq = .idle) (hmode : s.mode ≠ .calibrating) (h : Answers s [(cRegStart s.cfg).turn s.cfg n received r] sig rx) :
    ∃ t, exec .regStart s = .next t ∧ t.res = Result.ofReply r ∧ OffsetAfter s.offset r.stored t.offset ∧ t.cs = false ∧
      t.env.rx = rx ∧ t.env.sig = sig ∧ SameRegs { s with offset := t.offset } t := by
  have hres := regStart_res s
  have hcs := regStart_cs s
  have hregs := (regStart_offsetOnly s).sameRegs
  obtain ⟨t, hrun, hoff, hran⟩ := regStart_ran rfl h
  rw [hrun] at hres hcs hregs
  exact ⟨t, exec_regStart_of_run hidle hmode hrun, hres, hoff, hcs, hran.left.done.1, hran.left.done.2, hregs⟩

/-- Settles O24: what the caller stores decides the offset. -/
theorem readOffsetIsStored : Obligations.ReadOffsetIsStored := by
  refine ⟨fun s b n received sig rx hidle hmode h => ?_, fun s e n received sig rx hidle hmode h => ?_⟩
  · obtain ⟨t, hexec, hres, hoff, hcs, hrx, hsig, hregs⟩ := exec_regStart_turn hidle hmode h
    have hoff : t.offset = b := hoff
    rw [hoff] at hregs
    exact ⟨t, hexec, hres, hoff, hcs, hrx, hsig, hregs⟩
  · obtain ⟨t, hexec, hres, hoff, hcs, hrx, hsig, hregs⟩ := exec_regStart_turn hidle hmode h
    have hoff : t.offset = s.offset := hoff
    rw [hoff] at hregs
    exact ⟨t, hexec, hres, hoff, hcs, hrx, hsig, hregs⟩

end Sys2Proof.Machine
end

section
/-! PROOFS. The touch decoder's rounds and arithmetic, and the calibration corners (44_calibration section 3, 45_touch). -/

namespace Sys2Proof.Machine

/-! ## Arithmetic of coordinates -/

/-- A number that fits int16 is stored as itself (R236, R238). -/
theorem trunc16_toInt {n : Nat} (h : n ≤ 32767) : (trunc16 n).toInt = n := by
  rw [trunc16, BitVec.toInt_ofNat']
  exact Int.bmod_eq_of_le (by omega) (by omega)

theorem rawAxis_le (lo hi : Byte) : rawAxis lo hi ≤ 16383 := by
  rw [rawAxis_eq]
  omega

/-- The bound of R238: the largest raw value at dimension 8191 stays below 32768. -/
theorem scale_rawAxis_le {dim : Half} (h : dim.toNat ≤ 8191) (lo hi : Byte) : scale (rawAxis lo hi) dim ≤ 32767 := by
  rw [scale_eq_div]
  calc rawAxis lo hi * dim.toNat / 4096 ≤ 16383 * 8191 / 4096 :=
        Nat.div_le_div_right (Nat.mul_le_mul (rawAxis_le lo hi) h)
    _ ≤ 32767 := by decide

/-- Settles O45: the scaling is a division, and at these raw values a linear one. -/
theorem scalingReachesTheDimension : Obligations.ScalingReachesTheDimension := by
  intro dim
  simp only [scale_eq_div]
  refine ⟨fun a b hab => Nat.div_le_div_right (Nat.mul_le_mul_right _ hab), fun hpos hle => ?_, ?_, ?_⟩ <;> omega

/-- Settles O46: the scaled values fit. -/
theorem coordinatesFitInt16 : Obligations.CoordinatesFitInt16 := by
  intro width height touched xlo xhi ylo yhi hw hh
  exact ⟨trunc16_toInt (scale_rawAxis_le hw xlo xhi), trunc16_toInt (scale_rawAxis_le hh ylo yhi)⟩

/-- Settles O47: the rotated coordinate is built from the same two scaled values. -/
theorem rotationExchangesTheAxes : Obligations.RotationExchangesTheAxes := by
  rintro width height touched xlo xhi ylo yhi _ rfl
  rfl

/-- The margin stays inside the dimension: `INSET` is a byte, below 400 (R217). -/
theorem margin_le (dim : Half) (inset : Byte) : margin dim inset ≤ dim.toNat := by
  have hinset : inset.toNat ≤ 400 := by have := inset.isLt; omega
  exact Nat.div_le_of_le_mul (by rw [Nat.mul_comm 400]; exact Nat.mul_le_mul_left _ hinset)

/-- Each coordinate of a corner is the margin or the dimension minus the margin (R216). -/
theorem corner_cases {pointIndex : BitVec 3} {width height x y : Half} {inset : Byte}
    (h : corner pointIndex width height inset = some (x, y)) :
    (x = trunc16 (margin width inset) ∨ x = trunc16 (width.toNat - margin width inset)) ∧
    (y = trunc16 (margin height inset) ∨ y = trunc16 (height.toNat - margin height inset)) := by
  unfold corner at h
  dsimp only at h
  split at h <;> cases h
  · exact ⟨.inl rfl, .inl rfl⟩
  · exact ⟨.inr rfl, .inl rfl⟩
  · exact ⟨.inr rfl, .inr rfl⟩
  · exact ⟨.inl rfl, .inr rfl⟩

/-- One axis of a corner, read as int16. -/
theorem corner_axis {dim v : Half} {inset : Byte} (hdim : dim.toNat ≤ 32767)
    (h : v = trunc16 (margin dim inset) ∨ v = trunc16 (dim.toNat - margin dim inset)) :
    0 ≤ v.toInt ∧ v.toInt ≤ dim.toNat ∧ (v.toInt = margin dim inset ∨ v.toInt + margin dim inset = dim.toNat) := by
  have hm := margin_le dim inset
  rcases h with rfl | rfl <;> rw [trunc16_toInt (by omega)] <;> omega

/-- Settles O38: axis by axis. -/
theorem cornersFitInt16 : Obligations.CornersFitInt16 := by
  intro pointIndex width height inset x y hw hh h
  obtain ⟨hx, hy⟩ := corner_cases h
  obtain ⟨hx0, hx1, hx2⟩ := corner_axis hw hx
  obtain ⟨hy0, hy1, hy2⟩ := corner_axis hh hy
  exact ⟨hx0, hx1, hy0, hy1, hx2, hy2⟩

/-! ## The pen byte -/

/-- Settles O39: the 256 pen bytes. -/
theorem penStateOfEveryByte : Obligations.PenStateOfEveryByte := by
  unfold Obligations.PenStateOfEveryByte
  decide

theorem penState_penDownByte : ∀ ignored : BitVec 6, penState (penDownByte ignored) = some true := by decide

theorem penState_penUpByte : ∀ ignored : BitVec 6, penState (penUpByte ignored) = some false := by decide

theorem penState_penInvalidByte : ∀ low : BitVec 7, penState (penInvalidByte low) = none := by decide

/-! ## One round of DECODE's loop -/

/-- DecodePacket writes what the packet makes of the coordinate (R233, R234). -/
theorem decodePacket_eq (pkt : List Byte) (s : State) :
    decodePacket pkt s = s.setCurrent (packetResult s.width s.height s.rotated s.current pkt) := by
  rcases pkt with _ | ⟨pen, _ | ⟨xlo, _ | ⟨xhi, _ | ⟨ylo, _ | ⟨yhi, _ | ⟨more, rest⟩⟩⟩⟩⟩⟩
  case cons.cons.cons.cons.cons.nil =>
    unfold decodePacket packetResult
    dsimp only
    cases penState pen <;> rfl
  all_goals rfl

/-- A round on a pending packet: its five bytes are exchanged under chip-select, and decoded (R232). -/
theorem packetRound_pending {pkt rest : List Byte} {s : State} (hlen : pkt.length = 5) (hrx : s.env.rx = pkt ++ rest) :
    packetRound s = { s with
      cs := false, current := packetResult s.width s.height s.rotated s.current pkt, env := { s.env with rx := rest },
      t := { s.t with pkt := pkt }, trace := .unsel :: recvEvents s.cfg.dummy pkt ++ .sel :: s.trace } := by
  have hrecv := recvPayload_pending pkt rest (select s) hrx
  rw [hlen] at hrecv
  simp only [packetRound, recvPacket, Config.pktLen, hrecv, decodePacket_eq]
  rfl

/-- At most the coordinate, chip-select, the transient registers, the trace and the oracle's answers differ. -/
def TouchOnly (s t : State) : Prop := t = { s with current := t.current, cs := t.cs, t := t.t, env := t.env, trace := t.trace }

theorem TouchOnly.trans {a b c : State} (h1 : TouchOnly a b) (h2 : TouchOnly b c) : TouchOnly a c := by
  cases a; cases b; cases c; simp_all [TouchOnly]

theorem ParseOnly.touchOnly {s t : State} (h : ParseOnly s t) : TouchOnly s t := by
  cases s; cases t; simp_all [ParseOnly, TouchOnly]

theorem TouchOnly.sameRegs {s t : State} (h : TouchOnly s t) : SameRegs { s with current := t.current } t := by
  rw [h]; exact ⟨rfl, rfl, rfl, rfl, rfl, rfl, rfl, rfl, rfl, rfl, rfl⟩

/-- A round ends with the release of chip-select and the write of a coordinate, whatever was received. -/
theorem packetRound_eq (s : State) : ∃ (c : Coord) (x : Transient),
    packetRound s = (unselect ((recvPayload Config.pktLen (select s)).2.setT x)).setCurrent c := by
  simp only [packetRound, recvPacket, decodePacket_eq]
  exact ⟨_, _, rfl⟩

theorem packetRound_touchOnly (s : State) : TouchOnly s (packetRound s) := by
  have hrecv := (recvPayload_link Config.pktLen (select s)).parse.touchOnly
  obtain ⟨c, x, h⟩ := packetRound_eq s
  rw [h]
  generalize (recvPayload Config.pktLen (select s)).2 = u at hrecv ⊢
  exact ((show TouchOnly s (select s) from rfl).trans hrecv).trans (show TouchOnly u ((unselect (u.setT x)).setCurrent c) from rfl)

theorem packetRound_cs (s : State) : (packetRound s).cs = false := by
  obtain ⟨c, x, h⟩ := packetRound_eq s
  rw [h]
  rfl

/-! ## DECODE -/

/-- An inactive line ends the loop (R232). -/
theorem decodeLoop_of_inactive {s : State} (h : (pollSig s).1 = false) (n : Nat) : decodeLoop n s = (pollSig s).2 := by
  cases n <;> simp [decodeLoop, h]

/-- So does a timer that has run out. -/
theorem decodeLoop_zero_of_active {s : State} (h : (pollSig s).1 = true) : decodeLoop 0 s = (pollExpired (pollSig s).2).2 := by
  simp [decodeLoop, h]

/-- Otherwise a packet is read. -/
theorem decodeLoop_succ_of_active {s : State} (h : (pollSig s).1 = true) (n : Nat) :
    decodeLoop (n + 1) s = decodeLoop n (packetRound (pollExpired (pollSig s).2).2) := by
  simp [decodeLoop, h]

/-- What holds across a poll, an expired timer and a round holds across the loop. -/
theorem decodeLoop_rel {R : State → State → Prop} (trans : ∀ {a b c}, R a b → R b c → R a c) (poll : ∀ s, R s (pollSig s).2)
    (expired : ∀ s, R s (pollExpired s).2) (round : ∀ s, R s (packetRound s)) (n : Nat) (s : State) : R s (decodeLoop n s) := by
  induction n generalizing s with
  | zero =>
    cases h : (pollSig s).1 with
    | false => rw [decodeLoop_of_inactive h]; exact poll s
    | true => rw [decodeLoop_zero_of_active h]; exact trans (poll s) (expired _)
  | succ n ih =>
    cases h : (pollSig s).1 with
    | false => rw [decodeLoop_of_inactive h]; exact poll s
    | true => rw [decodeLoop_succ_of_active h]; exact trans (trans (trans (poll s) (expired _)) (round _)) (ih _)

theorem decodeRun_touchOnly (s : State) : TouchOnly s (decodeRun s) := by
  have hloop := decodeLoop_rel (R := TouchOnly) TouchOnly.trans (fun s => (pollSig_link s).parse.touchOnly)
    (fun s => (pollExpired_link s).parse.touchOnly) packetRound_touchOnly
  exact (arm_link s.cfg.tDec s).parse.touchOnly.trans (hloop _ _)

/-- Chip-select is asserted, as it was, and no event since touched it. -/
structure Untouched (s t : State) : Prop where
  cs : s.cs = true
  events : ∃ events, t.trace = events ++ s.trace ∧ .sel ∉ events ∧ .unsel ∉ events

/-- DECODE's loop ends with chip-select asserted only where it read no packet (log 39). -/
theorem decodeLoop_untouched (n : Nat) (s : State) (h : (decodeLoop n s).cs = true) : Untouched s (decodeLoop n s) := by
  have hcs : (pollSig s).2.cs = s.cs := (pollSig_link s).cs
  induction n generalizing s with
  | zero =>
    cases hpoll : (pollSig s).1 with
    | false =>
      rw [decodeLoop_of_inactive hpoll] at h ⊢
      exact ⟨hcs ▸ h, [.sigq (pollSig s).1], pollSig_trace s, by simp, by simp⟩
    | true =>
      rw [decodeLoop_zero_of_active hpoll] at h ⊢
      exact ⟨hcs ▸ h, [.expq ((pollSig s).2.env.timer == 0), .sigq (pollSig s).1], congrArg (_ :: ·) (pollSig_trace s), by simp, by simp⟩
  | succ n ih =>
    cases hpoll : (pollSig s).1 with
    | false =>
      rw [decodeLoop_of_inactive hpoll] at h ⊢
      exact ⟨hcs ▸ h, [.sigq (pollSig s).1], pollSig_trace s, by simp, by simp⟩
    | true =>
      rw [decodeLoop_succ_of_active hpoll] at h
      have hround := (ih _ h (pollSig_link _).cs).cs
      rw [packetRound_cs] at hround
      cases hround

theorem decodeRun_untouched (s : State) (h : (decodeRun s).cs = true) : Untouched s (decodeRun s) := by
  obtain ⟨hcs, events, hev, hsel, hunsel⟩ := decodeLoop_untouched _ (arm s.cfg.tDec s) h
  refine ⟨(arm_link s.cfg.tDec s).cs ▸ hcs, events ++ [.arm s.cfg.tDec], ?_, by simpa using hsel, by simpa using hunsel⟩
  rw [List.append_assoc, List.singleton_append, ← arm_trace]
  exact hev

theorem exec_decode_of_enabled {s : State} (h : s.decodeEnabled = true) : exec .decode s = .next (decodeRun s) := if_pos h

/-- Settles O44: the loop's frame, and its end with chip-select asserted. -/
theorem decodeCompletes : Obligations.DecodeCompletes := by
  intro s hen
  have htouch := decodeRun_touchOnly s
  refine ⟨_, exec_decode_of_enabled hen, htouch.sameRegs, fun h => (decodeRun_untouched s h).cs, ?_, ?_, ?_⟩ <;> rw [htouch]

/-- The loop on scripted packets: each is read in a round of its own; then the line drops, or the timer expires with the line
active. -/
theorem decodeLoop_scripted (pkts : List (List Byte)) {n : Nat} {s : State} {more sig : List Bool} {rx : List Byte}
    (hlen : ∀ p ∈ pkts, p.length = 5) (htimer : s.env.timer = n)
    (hmore : more = [false] ∧ pkts.length ≤ n ∨ more = [true] ∧ pkts.length = n)
    (hsig : s.env.sig = List.replicate pkts.length true ++ more ++ sig) (hrx : s.env.rx = pkts.flatten ++ rx) :
    ∃ timer x, decodeLoop n s = { s with
      current := pkts.foldl (packetResult s.width s.height s.rotated) s.current, cs := if pkts = [] then s.cs else false,
      env := { s.env with sig := sig, rx := rx, timer := timer }, t := x,
      trace := (if more = [true] then [.expq true, .sigq true] else [.sigq false]) ++ (pkts.reverse.flatMap fun p =>
        .unsel :: recvEvents s.cfg.dummy p ++ [.sel, .expq false, .sigq true]) ++ s.trace } := by
  induction pkts generalizing n s with
  | nil =>
    obtain rfl : rx = s.env.rx := by simpa using hrx.symm
    rcases hmore with ⟨rfl, -⟩ | ⟨rfl, rfl⟩
    · have hpoll := pollSig_scripted (s := s) (b := false) (r := sig) (by simpa using hsig)
      refine ⟨s.env.timer, s.t, ?_⟩
      rw [decodeLoop_of_inactive (by rw [hpoll]), hpoll]
      simp [State.setEnv, State.emit]
    · have hpoll := pollSig_scripted (s := s) (b := true) (r := sig) (by simpa using hsig)
      refine ⟨0, s.t, ?_⟩
      have hzero : s.env.timer = 0 := htimer
      rw [show ([] : List (List Byte)).length = 0 from rfl, decodeLoop_zero_of_active (by rw [hpoll]), hpoll]
      simp [pollExpired, hzero, State.setEnv, State.emit]
  | cons pkt pkts ih =>
    have hpoll := pollSig_scripted (s := s) (b := true) (r := List.replicate pkts.length true ++ more ++ sig)
      (by simpa [List.replicate_succ] using hsig)
    obtain ⟨m, rfl⟩ : ∃ m, n = m + 1 := ⟨n - 1, by simp at hmore; omega⟩
    have hexp : (pollExpired (pollSig s).2).2 = { s with
        env := { s.env with sig := List.replicate pkts.length true ++ more ++ sig, timer := m },
        trace := .expq false :: .sigq true :: s.trace } := by
      simp [hpoll, pollExpired, htimer, State.setEnv, State.emit]
    have hround := packetRound_pending (s := (pollExpired (pollSig s).2).2) (pkt := pkt) (rest := pkts.flatten ++ rx)
      (hlen pkt (by simp)) (by rw [hexp]; simpa using hrx)
    obtain ⟨timer, x, h⟩ := ih (n := m) (s := packetRound (pollExpired (pollSig s).2).2) (fun p hp => hlen p (by simp [hp]))
      (by rw [hround, hexp]) (by simpa using hmore) (by rw [hround, hexp]) (by rw [hround])
    refine ⟨timer, x, ?_⟩
    rw [decodeLoop_succ_of_active (by rw [hpoll]), h, hround, hexp]
    simp

/-- Settles O43: the arming takes the scripted draw, and the loop reads the packets. -/
theorem decodeKeepsTheLastValidPacket : Obligations.DecodeKeepsTheLastValidPacket := by
  intro s pkts n more sig counts rx hen hlen hcounts hmore hsig hrx
  obtain ⟨timer, draws, harm, hdraw⟩ := arm_any s.cfg.tDec s
  obtain rfl := hdraw n (by rw [hcounts]; rfl)
  obtain ⟨timer', x, hloop⟩ := decodeLoop_scripted pkts (s := arm s.cfg.tDec s) (n := (arm s.cfg.tDec s).env.timer) (sig := sig)
    (rx := rx) hlen rfl (by rw [harm]; exact hmore) (by rw [harm]; exact hsig) (by rw [harm]; exact hrx)
  refine ⟨_, if more = [true] then [.expq true, .sigq true] else [.sigq false], exec_decode_of_enabled hen, ?_⟩
  rw [decodeRun, hloop, harm]
  refine ⟨⟨rfl, rfl, rfl, rfl, rfl, rfl, rfl, rfl, rfl, rfl, rfl⟩, rfl, rfl, rfl, rfl, rfl, rfl, by rw [hcounts]; rfl, rfl, rfl⟩

/-! ## The packet rows -/

theorem exec_packet_of_enabled {s : State} (h : s.decodeEnabled = true) (bytes : List Byte) :
    execPacket bytes s = .next (packetRound (offerBytes bytes s)) := if_pos h

/-- A packet row where DECODE is enabled is a round on its five bytes (log 20). -/
theorem packetRound_offered {bytes : List Byte} (hlen : bytes.length = 5) (s : State) : packetRound (offerBytes bytes s) = { s with
      cs := false, current := packetResult s.width s.height s.rotated s.current bytes, t := { s.t with pkt := bytes },
      trace := .unsel :: recvEvents s.cfg.dummy bytes ++ .sel :: s.trace } :=
  packetRound_pending hlen rfl

theorem packetResult_of_penState_some {pen : Byte} {touched : Bool} (h : penState pen = some touched) (width height : Half)
    (rotated : Bool) (c : Coord) (xlo xhi ylo yhi : Byte) : packetResult width height rotated c [pen, xlo, xhi, ylo, yhi] =
      packetCoord width height rotated touched xlo xhi ylo yhi := by
  simp only [packetResult, h]

theorem packetResult_of_penState_none {pen : Byte} (h : penState pen = none) (width height : Half)
    (rotated : Bool) (c : Coord) (xlo xhi ylo yhi : Byte) : packetResult width height rotated c [pen, xlo, xhi, ylo, yhi] = c := by
  simp only [packetResult, h]

/-- Settles O41: a round on the row's bytes, whose pen byte has the row's class. -/
theorem packetsStoreTheScaledCoordinate : Obligations.PacketsStoreTheScaledCoordinate := by
  intro s xlo xhi ylo yhi sx sy hen hx hy
  have hregs (c : Coord) (t : Transient) (trace : List Event) :
      SameRegs { s with current := c } { s with cs := false, current := c, t := t, trace := trace } :=
    ⟨rfl, rfl, rfl, rfl, rfl, rfl, rfl, rfl, rfl, rfl, rfl⟩
  refine ⟨fun ignored => ⟨_, exec_packet_of_enabled hen _, ?_⟩, fun ignored => ⟨_, exec_packet_of_enabled hen _, ?_⟩,
    fun low => ⟨_, exec_packet_of_enabled hen _, ?_⟩⟩ <;> rw [packetRound_offered rfl]
  · rw [packetResult_of_penState_some (penState_penDownByte ignored), packetCoord_of_scaled hx hy]
    exact ⟨hregs _ _ _, rfl, rfl, rfl, rfl, rfl, rfl⟩
  · rw [packetResult_of_penState_some (penState_penUpByte ignored), packetCoord_of_scaled hx hy]
    exact ⟨hregs _ _ _, rfl, rfl, rfl, rfl, rfl, rfl⟩
  · rw [packetResult_of_penState_none (penState_penInvalidByte low)]
    exact ⟨hregs _ _ _, rfl, rfl, rfl, rfl, rfl, rfl⟩

/-- Settles O42: the masked branches of DECODE and of the packet rows. -/
theorem maskedPacketsWaitInTheChip : Obligations.MaskedPacketsWaitInTheChip := by
  intro s i hmasked
  have hneg : ¬ s.decodeEnabled = true := by simp [hmasked]
  refine ⟨if_neg hneg, fun hch => ?_⟩
  rw [exec_packet hch, execPacket, if_neg hneg]
  rfl

/-! ## READ twice -/

/-- Settles O49: READ returns a coordinate only where it remembers it, and then it finds it unchanged. -/
theorem secondReadHasNothingNew : Obligations.SecondReadHasNothingNew := by
  intro s t c hidle hexec hres
  obtain rfl := performed_of_exec hidle hexec
  cases hinit : s.initialized with
  | false => simp [performed, readTouch_of_uninitialized hinit] at hres
  | true =>
    by_cases hsame : s.current = s.lastReported
    · simp [performed, readTouch_of_same hinit hsame] at hres
    · obtain rfl : s.current = c := by simpa [performed, readTouch_of_new hinit hsame] using hres
      rw [performed, readTouch_of_new hinit hsame]
      refine ⟨rfl, _, exec_read_of_readTouch rfl (readTouch_of_same hinit rfl), rfl, rfl⟩

end Sys2Proof.Machine
end

section
/-! PROOFS. The session operations INIT, SETREG, REGDUMP (43_session). -/

namespace Sys2Proof.Machine

/-! ## The mode -/

theorem mode_of_uninitialized {s : State} (h : s.initialized = false) : s.mode = .uninitialized := if_pos h

theorem initialized_of_ready {s : State} (h : s.mode = .ready) : s.initialized = true := by
  by_contra hinit
  rw [mode_of_uninitialized (by simpa using hinit)] at h
  cases h

theorem not_calibrating_of_ready {s : State} (h : s.mode = .ready) : s.mode ≠ .calibrating := by simp [h]

theorem not_calibrating_of_uninitialized {s : State} (h : s.initialized = false) : s.mode ≠ .calibrating := by
  simp [mode_of_uninitialized h]

/-! ## INIT -/

/-- INIT stores its attempts' outcome as the initialised flag (R190, R191): its entry has cleared it, and no attempt writes it. -/
theorem init_of_attempts {width height : Half} {rotated b : Bool} {s u : State}
    (h : attempts initAttempt Config.maxAttempts 1 (initEntry width height rotated s) = (b, u)) :
    init width height rotated s = (b, u.setInitialized b) := by
  have hoff : OffsetOnly (initEntry width height rotated s) u := by
    have := busRel_offsetOnly.attempts (busRel_offsetOnly.initAttempt storeOffset_offsetOnly) Config.maxAttempts 1
      (initEntry width height rotated s)
    rwa [h] at this
  have hcleared : u.initialized = false := BusOnly.initialized hoff
  unfold init
  rw [h]
  cases b with
  | true => rfl
  | false => cases u; cases hcleared; rfl

/-- What INIT's attempts leave, whatever the chip answers. -/
theorem initAttempts_laws {width height : Half} {rotated b : Bool} {s u : State}
    (h : attempts initAttempt Config.maxAttempts 1 (initEntry width height rotated s) = (b, u)) :
    u.cs = false ∧ SameRegs { s with width := width, height := height, rotated := rotated, initialized := b, offset := u.offset }
      (u.setInitialized b) := by
  have hcs := attempts_ensures (P := fun _ t => t.cs = false) initAttempt_cs 1 1 (initEntry width height rotated s)
  have hoff := busRel_offsetOnly.attempts (busRel_offsetOnly.initAttempt storeOffset_offsetOnly) Config.maxAttempts 1
    (initEntry width height rotated s)
  change (attempts initAttempt Config.maxAttempts 1 _).2.cs = false at hcs
  rw [h] at hcs hoff
  have hregs := BusOnly.sameRegs hoff
  exact ⟨hcs, rfl, hregs.2, hregs.3, hregs.4, rfl, hregs.6, hregs.7, hregs.8, hregs.9, hregs.10, hregs.11⟩

theorem exec_init_of_attempts {width height : Half} {rotated b : Bool} {s u : State} (hidle : s.seq = .idle)
    (hmode : s.mode ≠ .calibrating)
    (h : attempts initAttempt Config.maxAttempts 1 (initEntry width height rotated s) = (b, u)) :
    exec (.init width height rotated) s = .next (ret .init (.bool b) (u.setInitialized b)) := by
  rw [exec_of_idle hidle rfl (fun _ => hmode) (by simp), performed, init_of_attempts h]

/-- Settles O25: the laws of the attempts, and the return. -/
theorem initCompletes : Obligations.InitCompletes := by
  intro s width height rotated hidle hmode
  obtain ⟨b, u, h⟩ : ∃ b u, attempts initAttempt Config.maxAttempts 1 (initEntry width height rotated s) = (b, u) := ⟨_, _, rfl⟩
  obtain ⟨hcs, hregs⟩ := initAttempts_laws h
  exact ⟨_, b, exec_init_of_attempts hidle hmode h, rfl, hcs, ret_idle _ _ _, hregs.ret _ _⟩

theorem isCancel_iff (p : Params) (r : Reply) : isCancel p r = true ↔ r = .err (.chipStatus p.statusCancel) := decide_eq_true_iff

/-- Disable-touch within INIT does what its runs say (R192). -/
theorem disableTouch_ran {p : Params} {s : State} {turns later : List Turn} {b : Bool} {sig : List Bool} {rx : List Byte}
    (hp : s.cfg = p) (h : DisableTouchRun p turns b) (hans : Answers s (turns ++ later) sig rx) :
    ∃ r t, disableTouchWithCancelRetry s = (r, t) ∧ r.isErr = !b ∧ BusOnly s t ∧ Ran p s t turns later sig rx := by
  subst hp
  cases h with
  | once n received r other =>
    obtain ⟨t, hrun, hbus, hran⟩ := runCmd_ran _ rfl hans
    have hcancel : ¬ isCancel s.cfg r = true := mt (isCancel_iff s.cfg r).1 other
    refine ⟨r, t, ?_, (Bool.not_not _).symm, hbus, hran⟩
    unfold disableTouchWithCancelRetry
    rw [hrun]
    exact if_neg hcancel
  | resent n n2 received received2 r =>
    obtain ⟨u, hrun, hbus, hran⟩ := runCmd_ran (s := s) _ rfl hans
    obtain ⟨t, hrun2, hbus2, hran2⟩ := runCmd_retry_ran _ hran.cfg hran.left
    refine ⟨r, t, ?_, (Bool.not_not _).symm, hbus.trans hbus2, hran.trans hran2⟩
    unfold disableTouchWithCancelRetry
    rw [hrun]
    exact (if_pos ((isCancel_iff _ _).2 rfl)).trans hrun2

/-- One attempt of INIT does what its runs say (R191): the first failing command ends it. -/
theorem initAttempt_ran {p : Params} {s : State} {turns later : List Turn} {b : Bool} {stored : List (List Byte)} {sig : List Bool}
    {rx : List Byte} (hp : s.cfg = p) (h : InitAttemptRun p turns b stored) (hans : Answers s (turns ++ later) sig rx) :
    ∃ t, initAttempt s = (b, t) ∧ OffsetAfter s.offset stored t.offset ∧ Ran p s t turns later sig rx := by
  cases h with
  | disableFails turns d =>
    obtain ⟨r, t, hd, herr, hbus, hran⟩ := disableTouch_ran hp d hans
    exact ⟨t, by simp [initAttempt, hd, herr], hbus.offset, hran⟩
  | offsetFails turns n received e d =>
    rw [List.append_assoc] at hans
    obtain ⟨r, u, hd, herr, hbus, hran⟩ := disableTouch_ran hp d hans
    obtain ⟨t, ho, hoff, hran2⟩ := regStart_ran hran.cfg hran.left
    rw [hbus.offset] at hoff
    exact ⟨t, by simp [initAttempt, hd, herr, ho], hoff, hran.trans hran2⟩
  | enable turns n n2 received received2 offset r d =>
    rw [List.append_assoc] at hans
    obtain ⟨rd, u, hd, herr, hbus, hran⟩ := disableTouch_ran hp d hans
    obtain ⟨v, ho, hoff, hran2⟩ := regStart_ran hran.cfg hran.left
    obtain ⟨t, he, hbus2, hran3⟩ := runCmd_ran _ hran2.cfg hran2.left
    rw [hbus.offset, ← hbus2.offset] at hoff
    refine ⟨t, ?_, hoff, hran.trans (hran2.trans hran3)⟩
    simp [initAttempt, hd, herr, ho, hp, he]

/-- INIT on the answers of one or two attempts. -/
theorem exec_init_ran {s : State} {width height : Half} {rotated b : Bool} {turns : List Turn} {stored : List (List Byte)}
    {sig : List Bool} {rx : List Byte} (hidle : s.seq = .idle) (hmode : s.mode ≠ .calibrating)
    (h : AtMostTwo (InitAttemptRun s.cfg) turns b stored) (hans : Answers s turns sig rx) :
    ∃ t events, exec (.init width height rotated) s = .next t ∧ t.res = .bool b ∧ t.cs = false ∧ Idle t ∧
      OffsetAfter s.offset stored t.offset ∧ t.env.rx = rx ∧ t.env.sig = sig ∧
      SameRegs { s with width := width, height := height, rotated := rotated, initialized := b, offset := t.offset } t ∧
      Conversation s.cfg turns events ∧ t.trace = .ret .init (some (.bool b)) :: events ++ s.trace := by
  obtain ⟨u, hrun, hoff, hran⟩ := attempts_ran initAttempt_ran (s := initEntry width height rotated s) rfl h hans
  obtain ⟨hcs, hregs⟩ := initAttempts_laws hrun
  obtain ⟨events, hconv, htrace⟩ := hran.talk
  exact ⟨_, events, exec_init_of_attempts hidle hmode hrun, rfl, hcs, ret_idle _ _ _, hoff, hran.left.done.1, hran.left.done.2,
    hregs.ret _ _, hconv, congrArg (_ :: ·) htrace⟩

/-- Settles O26: the three commands are a first attempt that succeeds. -/
theorem initOnAnsweringChip : Obligations.InitOnAnsweringChip := by
  intro s width height rotated offset sig rx hidle hmode hans
  have hrun : InitAttemptRun s.cfg [(cDisableTouch s.cfg).accepted s.cfg [], (cRegStart s.cfg).accepted s.cfg [offset],
      (cEnableTouch s.cfg).accepted s.cfg []] true [[offset]] :=
    .enable [_] 0 0 _ _ [offset] (.ok []) (.once 0 _ (.ok []) (by simp))
  obtain ⟨t, events, hexec, hres, hcs, hidle', hoff, hrx, -, hregs, hconv, htrace⟩ := exec_init_ran hidle hmode (.first _ _ hrun) hans
  have hoff : t.offset = offset := hoff
  rw [hoff] at hregs
  exact ⟨t, events, hexec, hres, hcs, hidle', hrx, hregs, hconv, htrace⟩

/-- Settles O27: the resend belongs to the attempt; two attempts whose resend is cancelled too are a failure. -/
theorem initResendsAfterCancel : Obligations.InitResendsAfterCancel := by
  intro s width height rotated sig rx cancelled resent hidle hmode hcancelled hresent
  subst hcancelled hresent
  refine ⟨fun r1 offset turns hturns hans => ?_, fun r1 r2 r3 r4 turns hturns hans => ?_⟩ <;> subst hturns
  · have hrun : InitAttemptRun s.cfg _ true [[offset]] :=
      .enable _ 0 0 (responseFrame s.cfg.opRegStart [offset]) (responseFrame s.cfg.opEnableTouch []) [offset] (.ok [])
        (.resent 0 0 r1 (responseFrame s.cfg.opDisableTouch []) (.ok []))
    obtain ⟨t, events, hexec, hres, hcs, -, hoff, hrx, -, hregs, hconv, htrace⟩ := exec_init_ran hidle hmode (.first _ _ hrun) hans
    exact ⟨t, events, hexec, hres, hcs, hrx, hoff, hregs.initialized, hconv, htrace⟩
  · have hrun (a b : List Byte) : InitAttemptRun s.cfg _ false [] :=
      .disableFails _ (.resent 0 0 a b (.err (.chipStatus s.cfg.statusCancel)))
    obtain ⟨t, events, hexec, hres, hcs, -, hoff, hrx, -, hregs, hconv, htrace⟩ :=
      exec_init_ran hidle hmode (.second _ _ _ _ _ (hrun r1 r2) (hrun r3 r4)) hans
    exact ⟨t, events, hexec, hres, hcs, hrx, hoff, hregs.initialized, hconv, htrace⟩

/-! ## SETREG -/

theorem setReg_of_run {s u : State} {reg value : Byte} {r : Reply} (hinit : s.initialized = true)
    (hrun : runCmd (cSetRegister s reg value) s = (r, u)) : setReg reg value s = (Result.ofSetreg r, u) := by
  rw [setReg, if_pos hinit, hrun]

theorem setReg_of_uninitialized {s : State} (h : s.initialized = false) (reg value : Byte) : setReg reg value s = (.notReady, s) :=
  if_neg (by simp [h])

/-- SETREG with a session is its one command, returned to the host (R195). -/
theorem exec_setreg_of_run {s u : State} {reg value : Byte} {r : Reply} (hidle : s.seq = .idle) (hmode : s.mode = .ready)
    (hrun : runCmd (cSetRegister s reg value) s = (r, u)) :
    exec (.setreg reg value) s = .next (ret .setreg (Result.ofSetreg r) u) := by
  rw [exec_of_idle hidle rfl (fun _ => not_calibrating_of_ready hmode) (by simp), performed,
    setReg_of_run (initialized_of_ready hmode) hrun]

/-- Settles O29: without a session only the return runs; with one, the command's run of the script. -/
theorem setregWritesOneRegister : Obligations.SetregWritesOneRegister := by
  intro s reg value hidle
  refine ⟨fun hinit => ?_, fun n received r write sig rx hmode hwrite hans => ?_⟩
  · rw [exec_of_idle hidle rfl (fun _ => not_calibrating_of_uninitialized hinit) (by simp), performed,
      setReg_of_uninitialized hinit, ret_of_idle hidle]
  · subst hwrite
    obtain ⟨u, ignored, hrun, hbus, hcs, -, hl, htrace, hleft⟩ := runCmd_turn (cSetRegister s reg value) n received r hans
    refine ⟨_, _, exec_setreg_of_run hidle hmode hrun, ?_, hcs.trans (Bool.and_false _), hleft.done.1, hleft.done.2, ret_idle _ _ _,
      hbus.sameRegs.ret _ _, .single _ _ ignored hl, congrArg (_ :: ·) htrace⟩
    cases r <;> rfl

/-- Settles O30: the laws of the one command, and the return. -/
theorem setregCompletes : Obligations.SetregCompletes := by
  intro s reg value hidle hmode
  have hcs := runCmd_releases (c := cSetRegister s reg value) rfl s
  have hbus := runCmd_bus (cSetRegister s reg value) s
  obtain ⟨r, u, hrun⟩ : ∃ r u, runCmd (cSetRegister s reg value) s = (r, u) := ⟨_, _, rfl⟩
  rw [hrun] at hcs hbus
  exact ⟨_, r, exec_setreg_of_run hidle hmode hrun, rfl, hcs, ret_idle _ _ _, hbus.sameRegs.ret _ _⟩

/-! ## REGDUMP -/

theorem dumpRegisters_cs (regs : List Byte) {s : State} (h : s.cs = false) : (dumpRegisters regs s).cs = false := by
  induction regs generalizing s with
  | nil => exact h
  | cons reg rest ih => exact ih (runCmd_releases rfl _)

/-- The dump hands one reply a register to the sink, whatever the chip answers. -/
theorem dumpRegisters_sink (regs : List Byte) (s : State) : ∃ replies : List Reply,
    replies.length = regs.length ∧ (dumpRegisters regs s).sink = replies.map .reply ++ s.sink := by
  induction regs generalizing s with
  | nil => exact ⟨[], rfl, rfl⟩
  | cons reg rest ih =>
    have hbus := (runCmd_bus (cReadRegister s reg) s).sameRegs.sink
    obtain ⟨r, u, hrun⟩ : ∃ r u, runCmd (cReadRegister s reg) s = (r, u) := ⟨_, _, rfl⟩
    obtain ⟨replies, hlen, hsink⟩ := ih (u.sinkPut (.reply r))
    rw [hrun] at hbus
    change u.sink = s.sink at hbus
    refine ⟨replies ++ [r], by simp [hlen], ?_⟩
    simp only [dumpRegisters, hrun, hsink, State.sinkPut_sink, hbus]
    simp

/-- REGDUMP with a session (R197): the offset, the version, the registers. -/
theorem regDump_of_run {s u : State} {r : Reply} (hinit : s.initialized = true)
    (hrun : runCmd (cGetVersion s.cfg) (s.sinkPut (.offset s.offset)) = (r, u)) :
    regDump s = dumpRegisters s.cfg.dumpRegs (u.sinkPut (.reply r)) := by
  rw [regDump, if_pos hinit]
  simp only [State.sinkPut_cfg, hrun]

theorem regDump_of_uninitialized {s : State} (h : s.initialized = false) : regDump s = s := if_neg (by simp [h])

theorem exec_regdump_of_idle {s : State} (hidle : s.seq = .idle) (hmode : s.mode ≠ .calibrating) :
    exec .regdump s = .next (retNone .regdump (regDump s)) :=
  exec_of_idle hidle rfl (fun _ => hmode) (by simp)

/-- Settles O31: the frame of the dump's commands, and what they hand to the sink. -/
theorem regdumpKeepsDriverState : Obligations.RegdumpKeepsDriverState := by
  intro s hidle
  refine ⟨fun hinit => ?_, fun hmode => ?_⟩
  · rw [exec_regdump_of_idle hidle (not_calibrating_of_uninitialized hinit), regDump_of_uninitialized hinit]
    cases s
    cases hidle
    rfl
  · have hregs := (busRel_sinkOnly.regDump (fun _ _ => rfl) s).sameRegs
    have hcs := runCmd_releases (c := cGetVersion s.cfg) rfl (s.sinkPut (.offset s.offset))
    have hsink := (runCmd_bus (cGetVersion s.cfg) (s.sinkPut (.offset s.offset))).sameRegs.sink
    obtain ⟨r, u, hrun⟩ : ∃ r u, runCmd (cGetVersion s.cfg) (s.sinkPut (.offset s.offset)) = (r, u) := ⟨_, _, rfl⟩
    obtain ⟨replies, hlen, hdump⟩ := dumpRegisters_sink s.cfg.dumpRegs (u.sinkPut (.reply r))
    rw [hrun] at hcs hsink
    change u.sink = .offset s.offset :: s.sink at hsink
    rw [regDump_of_run (initialized_of_ready hmode) hrun] at hregs
    refine ⟨_, replies ++ [r], exec_regdump_of_idle hidle (not_calibrating_of_ready hmode), ?_, retNone_idle _ _,
      by simp [hlen, Nat.add_comm], ?_, ?_⟩ <;> rw [regDump_of_run (initialized_of_ready hmode) hrun]
    · exact dumpRegisters_cs _ hcs
    · refine hdump.trans ?_
      simp [hsink]
    · exact hregs.retNone _

/-- The runs of a dump of these registers with these answers (R197). -/
def dumpTurns (p : Params) (offset : Byte) (regs : List Byte) (answers : List (Nat × List Byte × Reply)) : List Turn :=
  (regs.zip answers).map fun x =>
    Command.turn p ⟨p.opRegRead, [0x00, x.1 + offset, 0x01], 1, false⟩ x.2.1 x.2.2.1 x.2.2.2

theorem dumpRegisters_ran {p : Params} {offset : Byte} {regs : List Byte} {answers : List (Nat × List Byte × Reply)} {s : State}
    {sig : List Bool} {rx : List Byte} (hp : s.cfg = p) (hoff : s.offset = offset) (hlen : answers.length = regs.length)
    (hans : Answers s (dumpTurns p offset regs answers) sig rx) :
    Ran p s (dumpRegisters regs s) (dumpTurns p offset regs answers) [] sig rx ∧
      (dumpRegisters regs s).sink = answers.reverse.map (fun x => .reply x.2.2) ++ s.sink := by
  induction regs generalizing s answers with
  | nil =>
    obtain rfl : answers = [] := by simpa using hlen
    exact ⟨⟨⟨[], .nil, rfl⟩, hans, hp⟩, rfl⟩
  | cons reg rest ih =>
    obtain _ | ⟨⟨n, received, r⟩, answers⟩ := answers
    · cases hlen
    have hturn : (cReadRegister s reg).turn p n received r =
        Command.turn p ⟨p.opRegRead, [0x00, reg + offset, 0x01], 1, false⟩ n received r := by rw [← hp, ← hoff]; rfl
    obtain ⟨u, hrun, hbus, hran⟩ := runCmd_ran (cReadRegister s reg) (later := dumpTurns p offset rest answers) hp
      (by rw [hturn]; exact hans)
    rw [hturn] at hran
    obtain ⟨hran2, hsink⟩ := ih (s := u.sinkPut (.reply r)) hran.cfg (hbus.offset.trans hoff) (by simpa using hlen) hran.left
    have hdump : dumpRegisters (reg :: rest) s = dumpRegisters rest (u.sinkPut (.reply r)) := by
      rw [dumpRegisters, hrun]
    have hran' : Ran p u (dumpRegisters rest (u.sinkPut (.reply r))) (dumpTurns p offset rest answers) [] sig rx :=
      ⟨hran2.talk, hran2.left, hran2.cfg⟩
    rw [hdump]
    refine ⟨Ran.trans (by rw [List.append_nil]; exact hran) hran', ?_⟩
    rw [hsink, State.sinkPut_sink, hbus.sameRegs.sink]
    simp

/-- Settles O32: the version's run of the script, then the registers'. -/
theorem regdumpReadsEachRegister : Obligations.RegdumpReadsEachRegister := by
  intro s n received version answers turns sig rx hidle hmode hlen hturns hans
  subst hturns
  have hcs := runCmd_releases (c := cGetVersion s.cfg) rfl (s.sinkPut (.offset s.offset))
  obtain ⟨u, hrun, hbus, hran⟩ := runCmd_ran (cGetVersion s.cfg) (s := s.sinkPut (.offset s.offset)) rfl hans
  rw [hrun] at hcs
  obtain ⟨hran2, hsink⟩ := dumpRegisters_ran (s := u.sinkPut (.reply version)) hran.cfg hbus.offset hlen hran.left
  have hran' : Ran s.cfg u (dumpRegisters s.cfg.dumpRegs (u.sinkPut (.reply version))) _ [] sig rx :=
    ⟨hran2.talk, hran2.left, hran2.cfg⟩
  obtain ⟨events, hconv, htrace⟩ := (Ran.trans (by rw [List.append_nil]; exact hran) hran').talk
  refine ⟨_, events, exec_regdump_of_idle hidle (not_calibrating_of_ready hmode), ?_⟩
  rw [regDump_of_run (initialized_of_ready hmode) hrun]
  refine ⟨hran2.left.done.1, hran2.left.done.2, dumpRegisters_cs _ hcs, ?_, hconv, congrArg (_ :: ·) htrace⟩
  refine hsink.trans ?_
  rw [State.sinkPut_sink, hbus.sameRegs.sink]
  rfl

end Sys2Proof.Machine
end

section
/-! PROOFS. The calibration sequencer's transitions (44_calibration). -/

namespace Sys2Proof.Machine

/-! ## CALSTART -/

/-- What CALSTART's retry policy repeats: the index is Idle's, then the attempt (R212). -/
def calAttempt (s : State) : Bool × State := calStartAttempt (s.setPointIndex idleIndex)

theorem calStart_of_attempts {s u : State} {b : Bool} (hinit : s.initialized = true)
    (h : attempts calAttempt Config.maxAttempts 1 s = (b, u)) :
    calStart s = (b, u.setPointIndex (if b then 0 else idleIndex)) := by
  rw [calStart, if_pos hinit]
  change (let r := attempts calAttempt Config.maxAttempts 1 s; (r.1, r.2.setPointIndex (if r.1 then 0 else idleIndex))) = _
  rw [h]

theorem calStart_of_uninitialized {s : State} (h : s.initialized = false) : calStart s = (false, s) := if_neg (by simp [h])

/-- The attempts hold chip-select exactly when the last one succeeded (R212, R224). -/
theorem calAttempts_cs {s u : State} {b : Bool} (h : attempts calAttempt Config.maxAttempts 1 s = (b, u)) : u.cs = b := by
  have hcs := attempts_ensures (P := fun b t => t.cs = b) (fun s => calStartAttempt_cs (s.setPointIndex idleIndex)) 1 1 s
  change (attempts calAttempt Config.maxAttempts 1 s).2.cs = (attempts calAttempt Config.maxAttempts 1 s).1 at hcs
  rwa [h] at hcs

theorem calStart_calOnly (s : State) : CalOnly s (calStart s).2 :=
  busRel_calOnly.calStart (fun p s => (storeOffset_offsetOnly p s).calOnly) (fun _ _ => rfl) s

theorem exec_calstart_of_run {s u : State} {b : Bool} (hidle : s.seq = .idle) (h : calStart s = (b, u)) :
    exec .calstart s = .next (ret .calstart (.bool b) u) := by
  rw [exec_of_idle hidle rfl (by simp [usesBus]) (by simp), performed, h]

/-- Settles O33: the laws of the attempts, and the return; without a session the return alone. -/
theorem calstartTransitions : Obligations.CalstartTransitions := by
  intro s hidle
  refine ⟨fun hinit => ?_, fun hinit => ?_⟩
  · obtain ⟨b, u, h⟩ : ∃ b u, attempts calAttempt Config.maxAttempts 1 s = (b, u) := ⟨_, _, rfl⟩
    have hrun := calStart_of_attempts hinit h
    have hregs := (calStart_calOnly s).sameRegs
    rw [hrun] at hregs
    have hcs := calAttempts_cs h
    exact ⟨_, b, exec_calstart_of_run hidle hrun, rfl, rfl, hcs, ret_idle _ _ _, hregs.ret _ _⟩
  · rw [exec_calstart_of_run hidle (calStart_of_uninitialized hinit), ret_of_idle hidle]

/-- The inset write goes to the offset just read (R214). -/
theorem cWriteInset_eq {s : State} {p : Params} {offset : Byte} (hp : s.cfg = p) (h : s.offset = offset) :
    cWriteInset s = insetWrite p offset := by
  subst hp h
  rfl

/-- The index is no part of a conversation. -/
theorem Ran.of_setPointIndex {p : Params} {s t : State} {i : BitVec 3} {turns later : List Turn} {sig : List Bool} {rx : List Byte}
    (h : Ran p (s.setPointIndex i) t turns later sig rx) : Ran p s t turns later sig rx := ⟨h.talk, h.left, h.cfg⟩

/-- One attempt of CALSTART does what its runs say (R212): the first failing command ends it. -/
theorem calAttempt_ran {p : Params} {s : State} {turns later : List Turn} {b : Bool} {stored : List (List Byte)} {sig : List Bool}
    {rx : List Byte} (hp : s.cfg = p) (h : CalAttemptRun p turns b stored) (hans : Answers s (turns ++ later) sig rx) :
    ∃ t, calAttempt s = (b, t) ∧ OffsetAfter s.offset stored t.offset ∧ Ran p s t turns later sig rx := by
  suffices hattempt : ∃ t, calStartAttempt (s.setPointIndex idleIndex) = (b, t) ∧ OffsetAfter s.offset stored t.offset ∧
      Ran p (s.setPointIndex idleIndex) t turns later sig rx by
    obtain ⟨t, hrun, hoff, hran⟩ := hattempt
    exact ⟨t, hrun, hoff, hran.of_setPointIndex⟩
  replace hans : Answers (s.setPointIndex idleIndex) (turns ++ later) sig rx := hans
  replace hp : (s.setPointIndex idleIndex).cfg = p := hp
  change ∃ t, _ ∧ OffsetAfter (s.setPointIndex idleIndex).offset _ _ ∧ _
  generalize s.setPointIndex idleIndex = s at hans hp ⊢
  cases h with
  | disableFails n received e =>
    obtain ⟨t, hd, hbus, hran⟩ := runCmd_ran _ hp hans
    exact ⟨t, by simp [calStartAttempt, hp, hd], hbus.offset, hran⟩
  | offsetFails n n2 received received2 e =>
    obtain ⟨u, hd, hbus, hran⟩ := runCmd_ran _ hp hans
    obtain ⟨t, ho, hoff, hran2⟩ := regStart_ran hran.cfg hran.left
    rw [hbus.offset] at hoff
    exact ⟨t, by simp [calStartAttempt, hp, hd, ho], hoff, hran.trans hran2⟩
  | writeFails n n2 n3 received received2 received3 offset e =>
    obtain ⟨u, hd, hbus, hran⟩ := runCmd_ran _ hp hans
    obtain ⟨v, ho, hoff, hran2⟩ := regStart_ran hran.cfg hran.left
    obtain ⟨t, hw, hbus3, hran3⟩ := runCmd_ran _ hran2.cfg hran2.left
    rw [← cWriteInset_eq hran2.cfg hoff] at hw
    rw [← hbus3.offset] at hoff
    exact ⟨t, by simp [calStartAttempt, hp, hd, ho, hw], hoff, hran.trans (hran2.trans hran3)⟩
  | mode n n2 n3 n4 received received2 received3 received4 offset r =>
    obtain ⟨u, hd, hbus, hran⟩ := runCmd_ran _ hp hans
    obtain ⟨v, ho, hoff, hran2⟩ := regStart_ran hran.cfg hran.left
    obtain ⟨w, hw, hbus3, hran3⟩ := runCmd_ran _ hran2.cfg hran2.left
    obtain ⟨t, hm, hbus4, hran4⟩ := runCmd_ran _ hran3.cfg hran3.left
    rw [← cWriteInset_eq hran2.cfg hoff] at hw
    rw [← hbus3.offset, ← hbus4.offset] at hoff
    exact ⟨t, by simp [calStartAttempt, hp, hd, ho, hw, hm], hoff, hran.trans (hran2.trans (hran3.trans hran4))⟩

/-- CALSTART on the answers of one or two attempts. -/
theorem exec_calstart_ran {s : State} {b : Bool} {turns : List Turn} {stored : List (List Byte)} {sig : List Bool} {rx : List Byte}
    (hidle : s.seq = .idle) (hinit : s.initialized = true) (h : AtMostTwo (CalAttemptRun s.cfg) turns b stored)
    (hans : Answers s turns sig rx) :
    ∃ t events, exec .calstart s = .next t ∧ t.res = .bool b ∧ t.pointIndex = (if b then 0 else 5) ∧ t.cs = b ∧ Idle t ∧
      OffsetAfter s.offset stored t.offset ∧ t.env.rx = rx ∧ t.env.sig = sig ∧
      SameRegs { s with pointIndex := t.pointIndex, offset := t.offset } t ∧
      Conversation s.cfg turns events ∧ t.trace = .ret .calstart (some (.bool b)) :: events ++ s.trace := by
  obtain ⟨u, h, hoff, hran⟩ := attempts_ran calAttempt_ran rfl h hans
  have hrun := calStart_of_attempts hinit h
  have hregs := (calStart_calOnly s).sameRegs
  rw [hrun] at hregs
  have hcs := calAttempts_cs h
  obtain ⟨events, hconv, htrace⟩ := hran.talk
  exact ⟨_, events, exec_calstart_of_run hidle hrun, rfl, rfl, hcs, ret_idle _ _ _, hoff, hran.left.done.1,
    hran.left.done.2, hregs.ret _ _, hconv, congrArg (_ :: ·) htrace⟩

/-- Settles O28: INIT and CALSTART on the answers of their attempts. -/
theorem attemptsAreRetriedOnceFromTheTop : Obligations.AttemptsAreRetriedOnceFromTheTop := by
  refine ⟨fun s width height rotated turns b stored sig rx hidle hmode h hans => ?_, fun s turns b stored sig rx hidle hinit h hans => ?_⟩
  · obtain ⟨t, events, hexec, hres, hcs, hidle', hoff, hrx, hsig, hregs, hconv, htrace⟩ := exec_init_ran hidle hmode h hans
    exact ⟨t, events, hexec, hres, hregs.initialized, hcs, hidle', hoff, hrx, hsig, hconv, htrace⟩
  · obtain ⟨t, events, hexec, hres, hpoint, hcs, hidle', hoff, hrx, hsig, -, hconv, htrace⟩ := exec_calstart_ran hidle hinit h hans
    exact ⟨t, events, hexec, hres, hpoint, hcs, hidle', hoff, hrx, hsig, hconv, htrace⟩

/-- Settles O35: the four commands are a first attempt that succeeds. -/
theorem calstartOnAnsweringChip : Obligations.CalstartOnAnsweringChip := by
  intro s offset turns sig rx hidle hinit hturns hans
  have hrun : CalAttemptRun s.cfg turns true [[offset]] := by
    rw [hturns]
    exact .mode 0 0 0 0 _ _ _ _ offset (.ok [])
  obtain ⟨t, events, hexec, hres, hpoint, hcs, hidle', hoff, hrx, -, hregs, hconv, htrace⟩ :=
    exec_calstart_ran hidle hinit (.first _ _ hrun) hans
  have hoff : t.offset = offset := hoff
  have hpoint : t.pointIndex = 0 := hpoint
  rw [hoff, hpoint] at hregs
  exact ⟨t, events, hexec, hres, hpoint, hoff, hcs, hrx, hidle', hregs, hconv, htrace⟩

/-! ## CALWAIT, case by case -/

theorem active_iff (s : State) : s.active = true ↔ s.pointIndex.toNat < 4 := decide_eq_true_iff

theorem calWait_of_inactive {s : State} (h : s.active = false) (tmo : Half) : calWait tmo s = (none, calFail s) :=
  if_neg (by simp [h])

/-- The wait for the point fails (R220). -/
theorem calWait_of_err {s u : State} {tmo : Half} {e : ProtocolError} (hact : s.active = true)
    (h : waitResp tmo true s = (.err e, u)) : calWait tmo s = (none, calFail u) := by
  simp [calWait, hact, h]

/-- The point is acknowledged, and it was not the last (R220). -/
theorem calWait_of_more {s u : State} {tmo : Half} {p : List Byte} (hact : s.active = true)
    (h : waitResp tmo true s = (.ok p, u)) (hmore : s.pointIndex.toNat < 3) :
    calWait tmo s = (some true, u.setPointIndex (s.pointIndex + 1)) := by
  have hpoint : u.pointIndex = s.pointIndex := by simpa [h] using (waitResp_bus tmo true s).pointIndex
  have hnext : (u.setPointIndex (s.pointIndex + 1)).active = true := by
    rw [active_iff, State.setPointIndex_pointIndex, BitVec.toNat_add]
    exact lt_of_le_of_lt (Nat.mod_le _ _) (Nat.add_lt_add_right hmore 1)
  simp only [calWait, hact, h, hpoint, hnext, Reply.isErr_ok, Bool.false_eq_true, if_false, if_true]

/-- The last point is acknowledged: CalFinish (R221). -/
theorem calWait_of_last {s u : State} {tmo : Half} {p : List Byte} (hlast : s.pointIndex = 3)
    (h : waitResp tmo true s = (.ok p, u)) : calWait tmo s = calFinish tmo (u.setPointIndex 4) := by
  have hpoint : u.pointIndex = s.pointIndex := by simpa [h] using (waitResp_bus tmo true s).pointIndex
  have hact : s.active = true := (active_iff s).2 (by rw [hlast]; decide)
  have hpast : (u.setPointIndex 4).active = false := rfl
  have hnext : u.pointIndex + 1 = 4 := by rw [hpoint, hlast]; rfl
  simp only [calWait, hact, h, hnext, hpast, Reply.isErr_ok, Bool.false_eq_true, if_false, if_true]

theorem calFinish_of_commit_err {s u : State} {tmo : Half} {e : ProtocolError} (h : waitResp tmo true s = (.err e, u)) :
    calFinish tmo s = (none, calFail u) := by
  simp [calFinish, h]

theorem calFinish_of_enable_err {s u v : State} {tmo : Half} {p : List Byte} {e : ProtocolError}
    (h : waitResp tmo true s = (.ok p, u)) (he : runCmd (cEnableTouch s.cfg) u = (.err e, v)) :
    calFinish tmo s = (none, calFail v) := by
  simp [calFinish, h, he]

theorem calFinish_of_ok {s u v : State} {tmo : Half} {p q : List Byte} (h : waitResp tmo true s = (.ok p, u))
    (he : runCmd (cEnableTouch s.cfg) u = (.ok q, v)) : calFinish tmo s = (some false, v) := by
  simp [calFinish, h, he]

/-- CalFinish fails, with the index and chip-select of CalFail, or ends the calibration with the index it had. -/
theorem calFinish_laws (tmo : Half) (s : State) :
    (∃ u, calFinish tmo s = (none, calFail u)) ∨ ∃ u, calFinish tmo s = (some false, u) ∧ u.pointIndex = s.pointIndex ∧ u.cs = false := by
  have hbus := waitResp_bus tmo true s
  rcases h : waitResp tmo true s with ⟨_ | e, u⟩ <;> rw [h] at hbus
  · have hbus2 := runCmd_bus (cEnableTouch s.cfg) u
    have hcs := runCmd_releases (c := cEnableTouch s.cfg) rfl u
    rcases he : runCmd (cEnableTouch s.cfg) u with ⟨_ | e, v⟩ <;> rw [he] at hbus2 hcs
    · exact .inr ⟨v, calFinish_of_ok h he, hbus2.pointIndex.trans hbus.pointIndex, hcs⟩
    · exact .inl ⟨v, calFinish_of_enable_err h he⟩
  · exact .inl ⟨u, calFinish_of_commit_err h⟩

/-- Each outcome of CALWAIT comes with its index and its chip-select (R211, R224). -/
theorem calWait_laws {tmo : Half} {s u : State} {o : Option Bool} (h : calWait tmo s = (o, u)) :
    (o = none → u.pointIndex = 5 ∧ u.cs = false) ∧
    (o = some true → s.pointIndex.toNat < 3 ∧ u.pointIndex = s.pointIndex + 1 ∧ u.cs = true) ∧
    (o = some false → s.pointIndex = 3 ∧ u.pointIndex = 4 ∧ u.cs = false) := by
  have fails {v : State} (hv : calWait tmo s = (none, calFail v)) : (o = none → u.pointIndex = 5 ∧ u.cs = false) ∧
      (o = some true → s.pointIndex.toNat < 3 ∧ u.pointIndex = s.pointIndex + 1 ∧ u.cs = true) ∧
      (o = some false → s.pointIndex = 3 ∧ u.pointIndex = 4 ∧ u.cs = false) := by
    cases h.symm.trans hv
    exact ⟨fun _ => ⟨rfl, rfl⟩, nofun, nofun⟩
  cases hact : s.active with
  | false => exact fails (calWait_of_inactive hact tmo)
  | true =>
    have hcs := waitResp_cs tmo true s
    rcases hw : waitResp tmo true s with ⟨p | e, v⟩ <;> rw [hw] at hcs
    · by_cases hmore : s.pointIndex.toNat < 3
      · cases h.symm.trans (calWait_of_more hact hw hmore)
        exact ⟨nofun, fun _ => ⟨hmore, rfl, hcs⟩, nofun⟩
      · have hlast : s.pointIndex = 3 := BitVec.eq_of_toNat_eq (by have := (active_iff s).1 hact; simp; omega)
        have hfin := calWait_of_last hlast hw
        rcases calFinish_laws tmo (v.setPointIndex 4) with ⟨w, hv⟩ | ⟨w, hv, hpoint, hcs2⟩
        · exact fails (hfin.trans hv)
        · cases h.symm.trans (hfin.trans hv)
          exact ⟨nofun, nofun, fun _ => ⟨hlast, hpoint, hcs2⟩⟩
    · exact fails (calWait_of_err hact hw)

theorem calWait_pointOnly (tmo : Half) (s : State) : PointOnly s (calWait tmo s).2 :=
  busRel_pointOnly.calWait (fun _ => rfl) (fun _ _ => rfl) tmo s

theorem exec_calwait_of_run {s u : State} {tmo : Half} {o : Option Bool} (hidle : s.seq = .idle) (h : calWait tmo s = (o, u)) :
    exec (.calwait tmo) s = .next (ret .calwait (Result.ofCalwait o) u) := by
  rw [exec_of_idle hidle rfl (by simp [usesBus]) (by simp), performed, h]

/-- CALWAIT above the active indexes (R223). -/
theorem exec_calwait_of_inactive {s : State} (hidle : s.seq = .idle) (h : 3 < s.pointIndex.toNat) (tmo : Half) :
    exec (.calwait tmo) s = .next { s with
      pointIndex := 5, cs := false, res := .none, op := .none, trace := .ret .calwait (some .none) :: .unsel :: s.trace } := by
  have hact : s.active = false := by
    rw [← Bool.not_eq_true, active_iff]
    omega
  rw [exec_calwait_of_run hidle (calWait_of_inactive hact tmo), ret_of_idle (s := calFail s) hidle]
  rfl

/-- CALWAIT on its runs of the script (R220, R221): the outcome, its events, CalFail's `UNSEL` after a failure. -/
theorem calWait_ran {p : Params} {s : State} {tmo : Half} {turns later : List Turn} {o : Option Bool} {sig : List Bool}
    {rx : List Byte} (hp : s.cfg = p) (hpoint : s.pointIndex.toNat ≤ 3) (h : CalwaitRun p tmo s.pointIndex turns o)
    (hans : Answers s (turns ++ later) sig rx) : ∃ u events, calWait tmo s = (o, u) ∧ Conversation p turns events ∧
      u.trace = (if o = none then [.unsel] else []) ++ events ++ s.trace ∧ Answers u later sig rx := by
  have hact : s.active = true := (active_iff s).2 (by omega)
  have fails {v : State} (hv : calWait tmo s = (none, calFail v)) (hran : Ran p s v turns later sig rx) :
      ∃ u events, calWait tmo s = (none, u) ∧ Conversation p turns events ∧
        u.trace = (if (none : Option Bool) = none then [.unsel] else []) ++ events ++ s.trace ∧ Answers u later sig rx := by
    obtain ⟨events, hconv, htrace⟩ := hran.talk
    exact ⟨_, events, hv, hconv, congrArg (_ :: ·) htrace, hran.left⟩
  have succeeds {v : State} {b : Bool} (hv : calWait tmo s = (some b, v)) (hran : Ran p s v turns later sig rx) :
      ∃ u events, calWait tmo s = (some b, u) ∧ Conversation p turns events ∧
        u.trace = (if some b = none then [.unsel] else []) ++ events ++ s.trace ∧ Answers u later sig rx := by
    obtain ⟨events, hconv, htrace⟩ := hran.talk
    exact ⟨_, events, hv, hconv, htrace, hran.left⟩
  cases h with
  | pointFails n received e =>
    obtain ⟨v, hw, -, hran⟩ := waitResp_ran hp hans
    exact fails (calWait_of_err hact hw) hran
  | morePoints n early =>
    obtain ⟨v, hw, -, hran⟩ := waitResp_ran hp hans
    exact succeeds (calWait_of_more hact hw early) ⟨hran.talk, hran.left, hran.cfg⟩
  | commitFails n n2 received e last =>
    obtain ⟨v, hw, -, hran⟩ := waitResp_ran hp hans
    obtain ⟨w, hw2, -, hran2⟩ := waitResp_ran (s := v.setPointIndex 4) hran.cfg hran.left
    exact fails ((calWait_of_last last hw).trans (calFinish_of_commit_err hw2)) (hran.trans hran2.of_setPointIndex)
  | enableFails n n2 n3 received e last =>
    obtain ⟨v, hw, -, hran⟩ := waitResp_ran hp hans
    obtain ⟨w, hw2, -, hran2⟩ := waitResp_ran (s := v.setPointIndex 4) hran.cfg hran.left
    obtain ⟨x, he, -, hran3⟩ := runCmd_ran _ hran2.cfg hran2.left
    rw [← hran.cfg] at he
    exact fails ((calWait_of_last last hw).trans (calFinish_of_enable_err hw2 he))
      (hran.trans (hran2.of_setPointIndex.trans hran3))
  | finished n n2 n3 received last =>
    obtain ⟨v, hw, -, hran⟩ := waitResp_ran hp hans
    obtain ⟨w, hw2, -, hran2⟩ := waitResp_ran (s := v.setPointIndex 4) hran.cfg hran.left
    obtain ⟨x, he, -, hran3⟩ := runCmd_ran _ hran2.cfg hran2.left
    rw [← hran.cfg] at he
    exact succeeds ((calWait_of_last last hw).trans (calFinish_of_ok hw2 he))
      (hran.trans (hran2.of_setPointIndex.trans hran3))

/-- Settles O34: the laws of each outcome on any chip, and the runs that give it. -/
theorem calwaitTransitions : Obligations.CalwaitTransitions := by
  intro s tmo hidle
  have hregs := (calWait_pointOnly tmo s).sameRegs
  refine ⟨fun hpoint => ?_, fun hpoint => ?_, fun turns o sig rx hpoint hrun hans => ?_,
    fun h => exec_calwait_of_inactive hidle h tmo⟩
  · rcases h : calWait tmo s with ⟨o, u⟩
    rw [h] at hregs
    obtain ⟨hnone, hmore, hlast⟩ := calWait_laws h
    refine ⟨_, exec_calwait_of_run hidle h, ?_, ret_idle _ _ _, hregs.ret _ _⟩
    rcases o with _ | _ | _
    · exact .inr ⟨rfl, hnone rfl⟩
    · have hthree := (hlast rfl).1
      rw [hthree] at hpoint
      exact absurd hpoint (by decide)
    · exact .inl ⟨rfl, (hmore rfl).2⟩
  · rcases h : calWait tmo s with ⟨o, u⟩
    rw [h] at hregs
    obtain ⟨hnone, hmore, hlast⟩ := calWait_laws h
    refine ⟨_, exec_calwait_of_run hidle h, ?_, ret_idle _ _ _, hregs.ret _ _⟩
    rcases o with _ | _ | _
    · exact .inr ⟨rfl, hnone rfl⟩
    · exact .inl ⟨rfl, (hlast rfl).2⟩
    · have hearly := (hmore rfl).1
      rw [hpoint] at hearly
      exact absurd hearly (by decide)
  · obtain ⟨u, events, h, hconv, htrace, hleft⟩ := calWait_ran (later := []) rfl hpoint hrun (by simpa using hans)
    rw [h] at hregs
    obtain ⟨hnone, hmore, hlast⟩ := calWait_laws h
    refine ⟨_, events, exec_calwait_of_run hidle h, ?_, hleft.done.1, hleft.done.2, ret_idle _ _ _, hregs.ret _ _, hconv,
      congrArg (_ :: ·) htrace⟩
    rcases o with _ | _ | _
    · simp [hnone rfl, Result.ofCalwait]
    · simp [hlast rfl, Result.ofCalwait]
    · simp [hmore rfl, Result.ofCalwait]

/-- An acknowledged CALWAIT before the last point, with its events. -/
theorem exec_calwait_acknowledged {p : Params} {s : State} {tmo : Half} {n : Nat} {later : List Turn} {sig : List Bool} {rx : List Byte}
    (hp : s.cfg = p) (hidle : s.seq = .idle) (hpoint : s.pointIndex.toNat < 3)
    (hans : Answers s (acknowledged p tmo n :: later) sig rx) :
    ∃ t, exec (.calwait tmo) s = .next t ∧ t.res = .more true ∧ t.pointIndex = s.pointIndex + 1 ∧ t.cs = true ∧
      t.trace = .ret .calwait (some (.more true)) :: (acknowledged p tmo n).events p [] ++ s.trace ∧
      t.cfg = p ∧ t.seq = .idle ∧ Answers t later sig rx := by
  subst hp
  obtain ⟨u, hw, hbus, hcs, -, htrace, hleft⟩ := waitResp_turn tmo true n _ _ hans
  have hact : s.active = true := (active_iff s).2 (by omega)
  exact ⟨_, exec_calwait_of_run hidle (calWait_of_more hact hw hpoint), rfl, rfl, hcs, congrArg (_ :: ·) htrace, hbus.cfg, rfl, hleft⟩

/-- Settles O36: three acknowledged points, the last one with its commit wait and enable-touch, and a fifth CALWAIT above them. -/
theorem fourCalwaitsCompleteACalibration : Obligations.FourCalwaitsCompleteACalibration := by
  intro s tmo n1 n2 n3 n4 n5 n6 received ack enable sig rx hidle hpoint hack henable hans
  subst hack henable
  obtain ⟨t1, hexec1, hres1, hpoint1, hcs1, htrace1, hcfg1, hidle1, hans1⟩ :=
    exec_calwait_acknowledged rfl hidle (by rw [hpoint]; decide) hans
  rw [hpoint] at hpoint1
  obtain ⟨t2, hexec2, hres2, hpoint2, hcs2, htrace2, hcfg2, hidle2, hans2⟩ :=
    exec_calwait_acknowledged hcfg1 hidle1 (by rw [hpoint1]; decide) hans1
  rw [hpoint1] at hpoint2
  obtain ⟨t3, hexec3, hres3, hpoint3, hcs3, htrace3, hcfg3, hidle3, hans3⟩ :=
    exec_calwait_acknowledged hcfg2 hidle2 (by rw [hpoint2]; decide) hans2
  rw [hpoint2] at hpoint3
  obtain ⟨u4, last, hrun4, hconv, htrace4, hleft⟩ := calWait_ran (later := []) hcfg3 (by rw [hpoint3]; decide)
    (.finished n4 n5 n6 received (by rw [hpoint3]; rfl)) hans3
  obtain ⟨-, -, hlast⟩ := calWait_laws hrun4
  obtain ⟨-, hpoint4, hcs4⟩ := hlast rfl
  have hpast : 3 < (ret .calwait (.more false) u4).pointIndex.toNat := by
    change 3 < u4.pointIndex.toNat
    rw [hpoint4]
    decide
  exact ⟨t1, t2, t3, _, _, last, hexec1, hres1, hpoint1, hcs1, htrace1, hexec2, hres2, hpoint2, hcs2, htrace2, hexec3, hres3,
    hpoint3, hcs3, htrace3, exec_calwait_of_run hidle3 hrun4, rfl, hpoint4, hcs4, hleft.done.1, hleft.done.2, hconv,
    congrArg (_ :: ·) htrace4, exec_calwait_of_inactive rfl hpast tmo, rfl, rfl, rfl, rfl⟩

end Sys2Proof.Machine
end

section
/-! PROOFS. The instructions as whole operations of an idle engine: the registers each can write, the results each can have, and
chip-select after each (10_state, 60_exceptions, 70_reset). -/

namespace Sys2Proof.Machine

/-! ## The registers an instruction can write -/

/-- The state `s` with the registers that the instruction can write taken from `t`. -/
def permitted (i : Instr) (s t : State) : State :=
  match i with
  | .read => { s with lastReported := t.lastReported }
  | .decode | .pktPenDown _ _ _ _ _ | .pktPenUp _ _ _ _ _ | .pktInvalid _ _ _ _ _ => { s with current := t.current }
  | .calstart => { s with pointIndex := t.pointIndex, offset := t.offset }
  | .calwait _ => { s with pointIndex := t.pointIndex }
  | .regStart => { s with offset := t.offset }
  | .init _ _ _ => { s with
      width := t.width, height := t.height, rotated := t.rotated, initialized := t.initialized, offset := t.offset }
  | .regdump => { s with sink := t.sink }
  | .getVersion | .enableTouch | .disableTouch | .calibrateMode _ | .regRead _ _ | .regWrite _ _ | .eepromWrite
  | .reqFrame _ _ | .rspFrame _ _ _ _ | .cmd _ _ _ _ | .waitresp _ _ | .calpoint | .setreg _ _
  | .reserved0 | .reservedA | .reservedB | .reservedC | .reservedD | .reservedE | .reservedF
  | .select | .unselect | .xchg _ => s

theorem readTouch_regs (s : State) : SameRegs { s with lastReported := (readTouch s).2.lastReported } (readTouch s).2 := by
  unfold readTouch
  split_ifs <;> exact ⟨rfl, rfl, rfl, rfl, rfl, rfl, rfl, rfl, rfl, rfl, rfl⟩

theorem offer_regs (bytes : List Byte) (s : State) : SameRegs s (offer bytes s) :=
  ⟨rfl, rfl, rfl, rfl, rfl, rfl, rfl, rfl, rfl, rfl, rfl⟩

theorem init_regs (width height : Half) (rotated : Bool) (s : State) : SameRegs { s with
    width := (init width height rotated s).2.width, height := (init width height rotated s).2.height,
    rotated := (init width height rotated s).2.rotated, initialized := (init width height rotated s).2.initialized,
    offset := (init width height rotated s).2.offset } (init width height rotated s).2 := by
  obtain ⟨b, u, h⟩ : ∃ b u, attempts initAttempt Config.maxAttempts 1 (initEntry width height rotated s) = (b, u) := ⟨_, _, rfl⟩
  have hregs := (initAttempts_laws h).2
  rw [init_of_attempts h]
  exact ⟨rfl, hregs.2, hregs.3, hregs.4, rfl, rfl, rfl, rfl, hregs.9, hregs.10, hregs.11⟩

theorem xchg_link (phase : Phase) (out : Byte) (s : State) : LinkOnly s (xchg phase out s).2 := by
  have h := chipByte_link phase s
  unfold xchg
  generalize chipByte phase s = p at h ⊢
  exact h.trans rfl

/-- The transmit half of a CMD leaves the registers alone. -/
theorem performed_reqFrame_regs (opcode : Byte) (payload : List Byte) (s : State) :
    SameRegs s (performed (.reqFrame opcode payload) s) := by
  have hsend := (sendBytes_link (requestFrame opcode payload) (select (latchCmd opcode payload 0xFF false s))).parse.bus.sameRegs
  have harm := (arm_link s.cfg.tCmd
    ((sendBytes (select (latchCmd opcode payload 0xFF false s)) (requestFrame opcode payload)).setOp .cmd)).parse.bus.sameRegs
  simp only [performed]
  generalize sendBytes (select (latchCmd opcode payload 0xFF false s)) (requestFrame opcode payload) = a at hsend harm ⊢
  generalize arm s.cfg.tCmd (a.setOp .cmd) = b at harm ⊢
  exact ⟨harm.1.trans hsend.1, harm.2.trans hsend.2, harm.3.trans hsend.3, harm.4.trans hsend.4, harm.5.trans hsend.5,
    harm.6.trans hsend.6, harm.7.trans hsend.7, harm.8.trans hsend.8, harm.9.trans hsend.9, harm.10.trans hsend.10,
    harm.11.trans hsend.11⟩

theorem performed_packet_regs {i : Instr} (h : i.channel = some .pkt) (s : State) :
    SameRegs { s with current := (performed i s).current } (performed i s) := by
  rw [performed_packet h]
  split
  · exact TouchOnly.sameRegs ((show TouchOnly s (offerBytes _ s) from rfl).trans (packetRound_touchOnly _))
  · exact offer_regs _ s

/-- Each instruction of an idle engine writes the registers it is permitted to write, and no other. -/
theorem performed_regs (i : Instr) (s : State) : SameRegs (permitted i s (performed i s)) (performed i s) := by
  cases i with
  | getVersion | enableTouch | disableTouch | calibrateMode | regRead | regWrite =>
    change SameRegs s (runCmd _ s).2
    exact (runCmd_bus _ s).sameRegs
  | regStart =>
    have h := (regStart_offsetOnly s).sameRegs
    simp only [permitted, performed]
    generalize regStart s = x at h ⊢
    exact h
  | eepromWrite | cmd =>
    simp only [permitted, performed]
    exact (cmd_bus _ _ _ _ s).sameRegs.ret _ _
  | reqFrame opcode payload =>
    simp only [permitted]
    exact performed_reqFrame_regs opcode payload s
  | rspFrame => exact offer_regs _ s
  | pktPenDown | pktPenUp | pktInvalid =>
    simp only [permitted]
    exact performed_packet_regs rfl s
  | waitresp tmo hold =>
    have h := (waitResp_bus tmo hold s).sameRegs
    simp only [permitted, performed]
    generalize waitResp tmo hold s = x at h ⊢
    exact h.ret _ _
  | init width height rotated =>
    have h := init_regs width height rotated s
    simp only [permitted, performed]
    generalize init width height rotated s = x at h ⊢
    exact h.ret _ _
  | read =>
    have h := readTouch_regs s
    simp only [permitted, performed]
    generalize readTouch s = x at h ⊢
    exact h.ret _ _
  | calstart =>
    have h := (calStart_calOnly s).sameRegs
    simp only [permitted, performed]
    generalize calStart s = x at h ⊢
    exact h.ret _ _
  | calpoint =>
    simp only [permitted, performed]
    exact (SameRegs.refl s).ret _ _
  | calwait tmo =>
    have h := (calWait_pointOnly tmo s).sameRegs
    simp only [permitted, performed]
    generalize calWait tmo s = x at h ⊢
    exact h.ret _ _
  | setreg reg value =>
    have h := (busRel_busOnly.setReg reg value s).sameRegs
    simp only [permitted, performed]
    generalize setReg reg value s = x at h ⊢
    exact h.ret _ _
  | regdump =>
    have h := (busRel_sinkOnly.regDump (fun _ _ => rfl) s).sameRegs
    simp only [permitted, performed]
    generalize regDump s = u at h ⊢
    exact h.retNone _
  | reserved0 | reservedA | reservedB | reservedC | reservedD | reservedE | reservedF => exact .refl s
  | select => exact (select_bus s).sameRegs
  | unselect => exact (unselect_bus s).sameRegs
  | xchg out =>
    change SameRegs s (xchg .receiving out s).2
    exact (xchg_link .receiving out s).parse.bus.sameRegs
  | decode =>
    simp only [permitted, performed]
    split
    · exact (decodeRun_touchOnly s).sameRegs
    · exact .refl s

section
variable {i : Instr} {s t : State}

theorem permitted_lastReported (h : i ≠ .read) : (permitted i s t).lastReported = s.lastReported := by
  unfold permitted
  split
  · exact absurd rfl h
  all_goals rfl

theorem permitted_current (h : i ≠ .decode) (hch : i.channel ≠ some .pkt) : (permitted i s t).current = s.current := by
  unfold permitted
  split
  case h_2 => exact absurd rfl h
  case h_3 | h_4 | h_5 => exact absurd rfl hch
  all_goals rfl

theorem permitted_pointIndex (h : i ≠ .calstart) (hw : ∀ tmo, i ≠ .calwait tmo) : (permitted i s t).pointIndex = s.pointIndex := by
  unfold permitted
  split
  case h_6 => exact absurd rfl h
  case h_7 tmo => exact absurd rfl (hw tmo)
  all_goals rfl

theorem permitted_offset (h : i ≠ .calstart) (hr : i ≠ .regStart) (hi : ∀ w h r, i ≠ .init w h r) :
    (permitted i s t).offset = s.offset := by
  unfold permitted
  split
  case h_6 => exact absurd rfl h
  case h_8 => exact absurd rfl hr
  case h_9 w ht r => exact absurd rfl (hi w ht r)
  all_goals rfl

theorem permitted_display (hi : ∀ w h r, i ≠ .init w h r) : (permitted i s t).initialized = s.initialized ∧
    (permitted i s t).width = s.width ∧ (permitted i s t).height = s.height ∧ (permitted i s t).rotated = s.rotated := by
  unfold permitted
  split
  case h_9 w h r => exact absurd rfl (hi w h r)
  all_goals exact ⟨rfl, rfl, rfl, rfl⟩

theorem permitted_sink (h : i ≠ .regdump) : (permitted i s t).sink = s.sink := by
  unfold permitted
  split
  case h_10 => exact absurd rfl h
  all_goals rfl

theorem permitted_fixed : (permitted i s t).cfg = s.cfg ∧ (permitted i s t).inputs = s.inputs := by
  unfold permitted
  split <;> exact ⟨rfl, rfl⟩

end

/-- Settles O50: a register that changed is one the instruction is permitted to write. -/
theorem eachRegisterHasItsWriters : Obligations.EachRegisterHasItsWriters := by
  intro s t i hidle hexec
  obtain rfl := performed_of_exec hidle hexec
  have h := performed_regs i s
  refine ⟨fun hne => ?_, fun hne => ?_, fun hne => ?_, fun hne => ?_, fun hne => ?_, fun hne => ?_,
    h.cfg.trans permitted_fixed.1, h.inputs.trans permitted_fixed.2⟩ <;> by_contra hi
  · exact hne (h.lastReported.trans (permitted_lastReported hi))
  · exact hne (h.current.trans (permitted_current (fun h => hi (.inl h)) fun h => hi (.inr h)))
  · exact hne (h.pointIndex.trans (permitted_pointIndex (fun h => hi (.inl h)) fun tmo h => hi (.inr ⟨tmo, h⟩)))
  · exact hne (h.offset.trans (permitted_offset (fun h => hi (.inl h)) (fun h => hi (.inr (.inl h)))
      fun w ht r h => hi (.inr (.inr ⟨w, ht, r, h⟩))))
  · obtain ⟨hinit, hwidth, hheight, hrotated⟩ := permitted_display (s := s) (t := performed i s) fun w ht r h => hi ⟨w, ht, r, h⟩
    rcases hne with hne | hne | hne | hne
    · exact hne (h.initialized.trans hinit)
    · exact hne (h.width.trans hwidth)
    · exact hne (h.height.trans hheight)
    · exact hne (h.rotated.trans hrotated)
  · exact hne (h.sink.trans (permitted_sink hi))

end Sys2Proof.Machine
end

section
/-! PROOFS. The results of the whole operations, and chip-select after each and at the end of a run (60_exceptions, 70_reset). -/

namespace Sys2Proof.Machine

/-! ## The result registers -/

theorem resErr_of_err {s : State} {e : ProtocolError} (h : s.res = .err e) : s.resErr = e.code := by rw [State.resErr, h]

theorem resStatus_of_chipStatus {s : State} {c : Byte} (h : s.res = .err (.chipStatus c)) : s.resStatus = c := by
  rw [State.resStatus, h]

theorem resLen_of_payload {s : State} {p : List Byte} (h : s.res = .payload p) : s.resLen = BitVec.ofNat 8 p.length := by
  rw [State.resLen, h]

theorem tag_of_res {s : State} {r : Result} (h : s.res = r) : s.res.tag = r.tag := congrArg Result.tag h

/-! ## The results an operation can have -/

/-- An accepted payload fits the capacity (R146). -/
theorem recvFrame_fits {expected cap : Byte} {s : State} {p : List Byte} (h : (recvFrame expected cap s).1 = .ok p) :
    p.length ≤ cap.toNat := by
  unfold recvFrame at h
  dsimp only at h
  split_ifs at h with hhdr hlen hstatus hopcode hcap
  cases h
  rw [recvPayload_length]
  exact Nat.le_of_not_lt hcap

theorem receive_fits {expected cap : Byte} {tmo : Half} {s : State} {p : List Byte} (h : (receive expected cap tmo s).1 = .ok p) :
    p.length ≤ cap.toNat := by
  unfold receive at h
  dsimp only at h
  split at h
  · exact recvFrame_fits h
  · cases h

theorem runCmd_fits {c : Command} {s : State} {p : List Byte} (h : (runCmd c s).1 = .ok p) : p.length ≤ c.cap.toNat :=
  receive_fits (s := sentCmd c s) h

theorem waitResp_fits {tmo : Half} {hold : Bool} {s : State} {p : List Byte} (h : (waitResp tmo hold s).1 = .ok p) : p = [] :=
  List.eq_nil_of_length_eq_zero (Nat.le_zero.1 (receive_fits (s := select (latchWait tmo hold s)) h))

/-- A reply whose payload fits a capacity, in the result registers. -/
theorem reply_shown {t : State} {r : Reply} {cap : Byte} (hres : t.res = Result.ofReply r)
    (hfits : ∀ p, r = .ok p → p.length ≤ cap.toNat) :
    (∃ p, t.res = .payload p ∧ t.resLen.toNat = p.length ∧ p.length ≤ cap.toNat) ∨ t.res.tag = .err := by
  cases r with
  | ok p =>
    have hle := hfits p rfl
    refine .inl ⟨p, hres, ?_, hle⟩
    rw [resLen_of_payload hres, BitVec.toNat_ofNat]
    exact Nat.mod_eq_of_lt (lt_of_le_of_lt hle cap.isLt)
  | err e => exact .inr (tag_of_res hres)

theorem performed_cmd_res (opcode : Byte) (payload : List Byte) (cap : Byte) (hold : Bool) (s : State) :
    (performed (.cmd opcode payload cap hold) s).res = Result.ofReply (runCmd ⟨opcode, payload, cap, hold⟩ s).1 := rfl

theorem setReg_results (reg value : Byte) (s : State) : (setReg reg value s).1 = .notReady ∨
    ∃ r, (setReg reg value s).1 = Result.ofSetreg r := by
  unfold setReg
  split
  · exact .inr ⟨_, rfl⟩
  · exact .inl rfl

theorem readTouch_results (s : State) : (readTouch s).1.tag = .coord ∨ (readTouch s).1.tag = .noNew ∨ (readTouch s).1.tag = .notReady := by
  unfold readTouch
  split_ifs <;> simp [Result.tag]

theorem calPoint_results (s : State) : (calPoint s).tag = .point ∨ (calPoint s).tag = .none := by
  unfold calPoint
  split <;> simp [Result.tag]

theorem tag_bool (b : Bool) : (Result.bool b).tag = .true ∨ (Result.bool b).tag = .false := by
  cases b <;> simp [Result.tag]

/-- Settles O56: each register by the result it shows; each operation's results by the law that says what it answers. -/
theorem resultRegistersShowTheResult : Obligations.ResultRegistersShowTheResult := by
  refine ⟨fun s => ⟨resErr_of_err, resErr_of_err, resErr_of_err, resErr_of_err, resErr_of_err,
    fun c h => ⟨resErr_of_err h, resStatus_of_chipStatus h⟩, fun e h => tag_of_res h, tag_of_res,
    fun p h => ⟨tag_of_res h, resLen_of_payload h⟩, tag_of_res, tag_of_res, fun c h => tag_of_res h, tag_of_res, tag_of_res,
    fun x y h => tag_of_res h, tag_of_res, fun b h => tag_of_res h⟩, ?_⟩
  intro s t i hidle hexec
  obtain rfl := performed_of_exec hidle hexec
  refine ⟨?cmd, ?waitresp, ?wire, ?setreg, ?attempts, ?read, ?calpoint, ?calwait⟩
  case cmd =>
    rintro opcode payload cap hold rfl
    exact reply_shown (performed_cmd_res opcode payload cap hold s) fun p h => runCmd_fits h
  case waitresp =>
    rintro tmo hold rfl
    cases h : (waitResp tmo hold s).1 with
    | ok p =>
      obtain rfl := waitResp_fits h
      have hres : (performed (.waitresp tmo hold) s).res = .payload [] := congrArg Result.ofReply h
      exact .inl ⟨hres, resLen_of_payload hres⟩
    | err e =>
      have hres : (performed (.waitresp tmo hold) s).res = .err e := congrArg Result.ofReply h
      exact .inr (tag_of_res hres)
  case wire =>
    intro hch hreq
    obtain ⟨c, hc⟩ := exists_wireCommand s.cfg hch hreq
    have hfits {p : List Byte} (h : (runCmd c s).1 = .ok p) := runCmd_fits h
    have hres := runCmd_res c s
    obtain ⟨r, u, hrun⟩ : ∃ r u, runCmd c s = (r, u) := ⟨_, _, rfl⟩
    rw [hrun] at hfits hres
    rw [performed_wire hc hrun]
    exact (reply_shown (wireReturn_res hres) fun p h => hfits h).imp_left fun ⟨p, hp, hlen, _⟩ => ⟨p, hp, hlen⟩
  case setreg =>
    rintro reg value rfl
    have htag : (performed (.setreg reg value) s).res.tag = (setReg reg value s).1.tag := rfl
    rw [htag]
    rcases setReg_results reg value s with h | ⟨_ | e, h⟩ <;> rw [h]
    · exact .inr (.inr rfl)
    · exact .inl rfl
    · exact .inr (.inl rfl)
  case attempts =>
    rintro (⟨w, ht, r, rfl⟩ | rfl)
    · exact tag_bool (init w ht r s).1
    · exact tag_bool (calStart s).1
  case read => rintro rfl; exact readTouch_results s
  case calpoint => rintro rfl; exact calPoint_results s
  case calwait =>
    rintro tmo rfl
    have htag : (performed (.calwait tmo) s).res.tag = (Result.ofCalwait (calWait tmo s).1).tag := rfl
    rw [htag]
    cases (calWait tmo s).1 with
    | none => exact .inr rfl
    | some b => exact .inl rfl

/-! ## Chip-select after an operation -/

/-- An error of a framing operation has released chip-select (R147, R256). -/
theorem released_of_err {cs hold : Bool} {r : Reply} {e : ProtocolError} (hcs : cs = (!r.isErr && hold))
    (hres : Result.ofReply r = .err e) : cs = false := by
  cases r with
  | ok p => cases hres
  | err e => exact hcs

/-- A framing operation holds chip-select on success alone, where it was asked to. -/
theorem held_of_cs {cs hold : Bool} {r : Reply} (hcs : cs = (!r.isErr && hold)) (h : cs = true) :
    hold = true ∧ ∃ p, Result.ofReply r = .payload p := by
  cases r with
  | ok p => exact ⟨hcs.symm.trans h, p, rfl⟩
  | err e => exact absurd (hcs.symm.trans h) (by simp)

/-- After CALSTART from a session chip-select shows its result, and so does the index (R211, R224). -/
theorem calStart_laws {s u : State} {b : Bool} (hinit : s.initialized = true) (h : calStart s = (b, u)) :
    u.cs = b ∧ u.pointIndex = if b then 0 else 5 := by
  obtain ⟨b', v, hrun⟩ : ∃ b u, attempts calAttempt Config.maxAttempts 1 s = (b, u) := ⟨_, _, rfl⟩
  have hcs := calAttempts_cs hrun
  cases (calStart_of_attempts hinit hrun).symm.trans h
  exact ⟨hcs, rfl⟩

theorem regDump_cs {s : State} (hinit : s.initialized = true) : (regDump s).cs = false := by
  obtain ⟨r, u, hrun⟩ : ∃ r u, runCmd (cGetVersion s.cfg) (s.sinkPut (.offset s.offset)) = (r, u) := ⟨_, _, rfl⟩
  have hcs := runCmd_releases (c := cGetVersion s.cfg) rfl (s.sinkPut (.offset s.offset))
  rw [hrun] at hcs
  rw [regDump_of_run hinit hrun]
  exact dumpRegisters_cs _ hcs

/-! ## What the instructions of the host return -/

section
variable {s u : State}

theorem performed_cmd_of_run {opcode cap : Byte} {payload : List Byte} {hold : Bool} {r : Reply}
    (h : runCmd ⟨opcode, payload, cap, hold⟩ s = (r, u)) :
    performed (.cmd opcode payload cap hold) s = ret .cmd (Result.ofReply r) u := by
  change ret .cmd (Result.ofReply (runCmd ⟨opcode, payload, cap, hold⟩ s).1) (runCmd ⟨opcode, payload, cap, hold⟩ s).2 = _
  rw [h]

theorem performed_waitresp_of_run {tmo : Half} {hold : Bool} {r : Reply} (h : waitResp tmo hold s = (r, u)) :
    performed (.waitresp tmo hold) s = ret .waitresp (Result.ofReply r) u := by rw [performed, h]

theorem performed_init_of_run {width height : Half} {rotated b : Bool} (h : init width height rotated s = (b, u)) :
    performed (.init width height rotated) s = ret .init (.bool b) u := by rw [performed, h]

theorem performed_read_of_run {r : Result} (h : readTouch s = (r, u)) : performed .read s = ret .read r u := by rw [performed, h]

theorem performed_calstart_of_run {b : Bool} (h : calStart s = (b, u)) : performed .calstart s = ret .calstart (.bool b) u := by
  rw [performed, h]

theorem performed_calwait_of_run {tmo : Half} {o : Option Bool} (h : calWait tmo s = (o, u)) :
    performed (.calwait tmo) s = ret .calwait (Result.ofCalwait o) u := by rw [performed, h]

theorem performed_setreg_of_run {reg value : Byte} {r : Result} (h : setReg reg value s = (r, u)) :
    performed (.setreg reg value) s = ret .setreg r u := by rw [performed, h]

end

/-- An operation that uses the bus and reports failure has released chip-select (R303). -/
theorem released_of_failure {s t : State} {i : Instr} (hidle : s.seq = .idle) (hexec : exec i s = .next t) :
    (∀ opcode payload cap hold e, i = .cmd opcode payload cap hold → t.res = .err e → t.cs = false) ∧
    (∀ tmo hold e, i = .waitresp tmo hold → t.res = .err e → t.cs = false) ∧
    (∀ reg value e, i = .setreg reg value → t.res = .err e → t.cs = false) ∧
    (∀ w h r, i = .init w h r → t.res = .bool false → t.cs = false) ∧
    (i = .calstart → s.initialized = true → t.res = .bool false → t.cs = false) ∧
    (∀ tmo, i = .calwait tmo → t.res = .none → t.cs = false) := by
  obtain rfl := performed_of_exec hidle hexec
  refine ⟨?cmd, ?waitresp, ?setreg, ?init, ?calstart, ?calwait⟩
  case cmd =>
    rintro opcode payload cap hold e rfl
    have hcs := runCmd_cs ⟨opcode, payload, cap, hold⟩ s
    obtain ⟨r, u, h⟩ : ∃ r u, runCmd ⟨opcode, payload, cap, hold⟩ s = (r, u) := ⟨_, _, rfl⟩
    rw [h] at hcs
    rw [performed_cmd_of_run h]
    exact released_of_err hcs
  case waitresp =>
    rintro tmo hold e rfl
    have hcs := waitResp_cs tmo hold s
    obtain ⟨r, u, h⟩ : ∃ r u, waitResp tmo hold s = (r, u) := ⟨_, _, rfl⟩
    rw [h] at hcs
    rw [performed_waitresp_of_run h]
    exact released_of_err hcs
  case setreg =>
    rintro reg value e rfl
    cases hinit : s.initialized with
    | false =>
      rw [performed_setreg_of_run (setReg_of_uninitialized hinit reg value)]
      exact nofun
    | true =>
      have hcs := runCmd_releases (c := cSetRegister s reg value) rfl s
      obtain ⟨r, u, h⟩ : ∃ r u, runCmd (cSetRegister s reg value) s = (r, u) := ⟨_, _, rfl⟩
      rw [h] at hcs
      rw [performed_setreg_of_run (setReg_of_run hinit h)]
      exact fun _ => hcs
  case init =>
    rintro width height rotated rfl
    obtain ⟨b, u, h⟩ : ∃ b u, attempts initAttempt Config.maxAttempts 1 (initEntry width height rotated s) = (b, u) := ⟨_, _, rfl⟩
    rw [performed_init_of_run (init_of_attempts h)]
    exact fun _ => (initAttempts_laws h).1
  case calstart =>
    rintro rfl hinit
    obtain ⟨b, u, h⟩ : ∃ b u, calStart s = (b, u) := ⟨_, _, rfl⟩
    rw [performed_calstart_of_run h]
    intro hres
    cases hres
    exact (calStart_laws hinit h).1
  case calwait =>
    rintro tmo rfl
    obtain ⟨o, u, h⟩ : ∃ o u, calWait tmo s = (o, u) := ⟨_, _, rfl⟩
    rw [performed_calwait_of_run h]
    intro hres
    cases o with
    | none => exact ((calWait_laws h).1 rfl).2
    | some b => cases hres

/-! ## Chip-select asserted at the end of an operation -/

/-- Why an operation may end with chip-select asserted (R13, R147, R224). -/
abbrev HeldBy (i : Instr) (s t : State) : Prop :=
  (i = .calstart ∧ t.res = .bool true) ∨ (∃ tmo, i = .calwait tmo ∧ t.res = .more true) ∨
  (AsksToHold i ∧ ∃ p, t.res = .payload p) ∨
  (s.cs = true ∧ ∃ events, t.trace = events ++ s.trace ∧ .sel ∉ events ∧ .unsel ∉ events)

theorem HeldBy.untouched {i : Instr} {s t : State} (h : Untouched s t) : HeldBy i s t := .inr (.inr (.inr ⟨h.cs, h.events⟩))

/-- A return alone touches no chip-select. -/
theorem Untouched.ret {s t : State} (hcs : s.cs = true) (htrace : t.trace = s.trace) (op : OpName) (r : Result) :
    Untouched s (ret op r t) := ⟨hcs, [.ret op (some r)], by rw [ret_trace, htrace]; rfl, by simp, by simp⟩

theorem Untouched.refl {s : State} (hcs : s.cs = true) : Untouched s s := ⟨hcs, [], rfl, by simp, by simp⟩

theorem heldBy_of_cs {s t : State} {i : Instr} (hidle : s.seq = .idle) (hop : i.channel = some .host ∨ i = .decode)
    (hexec : exec i s = .next t) (hcs : t.cs = true) : HeldBy i s t := by
  obtain rfl := performed_of_exec hidle hexec
  cases i with
  | cmd opcode payload cap hold =>
    have hlaw := runCmd_cs ⟨opcode, payload, cap, hold⟩ s
    obtain ⟨r, u, h⟩ : ∃ r u, runCmd ⟨opcode, payload, cap, hold⟩ s = (r, u) := ⟨_, _, rfl⟩
    rw [h] at hlaw
    rw [performed_cmd_of_run h] at hcs ⊢
    obtain ⟨rfl, hp⟩ := held_of_cs hlaw hcs
    exact .inr (.inr (.inl ⟨.inl ⟨_, _, _, rfl⟩, hp⟩))
  | waitresp tmo hold =>
    have hlaw := waitResp_cs tmo hold s
    obtain ⟨r, u, h⟩ : ∃ r u, waitResp tmo hold s = (r, u) := ⟨_, _, rfl⟩
    rw [h] at hlaw
    rw [performed_waitresp_of_run h] at hcs ⊢
    obtain ⟨rfl, hp⟩ := held_of_cs hlaw hcs
    exact .inr (.inr (.inl ⟨.inr ⟨_, rfl⟩, hp⟩))
  | init width height rotated =>
    obtain ⟨b, u, h⟩ : ∃ b u, attempts initAttempt Config.maxAttempts 1 (initEntry width height rotated s) = (b, u) := ⟨_, _, rfl⟩
    rw [performed_init_of_run (init_of_attempts h)] at hcs
    exact absurd (hcs.symm.trans (initAttempts_laws h).1) (by simp)
  | read =>
    have hframe : (readTouch s).2.cs = s.cs ∧ (readTouch s).2.trace = s.trace := by
      unfold readTouch
      split_ifs <;> exact ⟨rfl, rfl⟩
    obtain ⟨r, u, h⟩ : ∃ r u, readTouch s = (r, u) := ⟨_, _, rfl⟩
    rw [h] at hframe
    rw [performed_read_of_run h] at hcs ⊢
    exact .untouched (.ret (hframe.1.symm.trans hcs) hframe.2 _ _)
  | calstart =>
    cases hinit : s.initialized with
    | false =>
      rw [performed_calstart_of_run (calStart_of_uninitialized hinit)] at hcs ⊢
      have hs : s.cs = true := hcs
      exact .untouched (.ret hs rfl _ _)
    | true =>
      obtain ⟨b, u, h⟩ : ∃ b u, calStart s = (b, u) := ⟨_, _, rfl⟩
      rw [performed_calstart_of_run h] at hcs ⊢
      obtain rfl : b = true := (calStart_laws hinit h).1.symm.trans hcs
      exact .inl ⟨rfl, rfl⟩
  | calpoint =>
    rw [performed] at hcs ⊢
    have hs : s.cs = true := hcs
    exact .untouched (.ret hs rfl _ _)
  | calwait tmo =>
    obtain ⟨o, u, h⟩ : ∃ o u, calWait tmo s = (o, u) := ⟨_, _, rfl⟩
    rw [performed_calwait_of_run h] at hcs ⊢
    obtain ⟨hnone, hmore, hlast⟩ := calWait_laws h
    match o with
    | none => exact absurd (hcs.symm.trans (hnone rfl).2) (by simp)
    | some true => exact .inr (.inl ⟨tmo, rfl, rfl⟩)
    | some false => exact absurd (hcs.symm.trans (hlast rfl).2.2) (by simp)
  | setreg reg value =>
    cases hinit : s.initialized with
    | false =>
      rw [performed_setreg_of_run (setReg_of_uninitialized hinit reg value)] at hcs ⊢
      have hs : s.cs = true := hcs
      exact .untouched (.ret hs rfl _ _)
    | true =>
      have hlaw := runCmd_releases (c := cSetRegister s reg value) rfl s
      obtain ⟨r, u, h⟩ : ∃ r u, runCmd (cSetRegister s reg value) s = (r, u) := ⟨_, _, rfl⟩
      rw [h] at hlaw
      rw [performed_setreg_of_run (setReg_of_run hinit h)] at hcs
      exact absurd (hcs.symm.trans hlaw) (by simp)
  | regdump =>
    cases hinit : s.initialized with
    | false =>
      rw [performed, regDump_of_uninitialized hinit] at hcs ⊢
      exact .untouched ⟨hcs, [.ret .regdump none], rfl, by simp, by simp⟩
    | true =>
      have hlaw := regDump_cs hinit
      rw [performed] at hcs
      generalize regDump s = u at hlaw hcs
      exact absurd (hcs.symm.trans hlaw) (by simp)
  | reserved0 | reservedA | reservedB | reservedC | reservedD | reservedE | reservedF => exact .untouched (.refl hcs)
  | decode =>
    rw [performed] at hcs ⊢
    split at hcs
    · rw [if_pos ‹_›]
      exact .untouched (decodeRun_untouched s hcs)
    · rw [if_neg ‹_›]
      exact .untouched (.refl hcs)
  | _ => simp [Instr.channel] at hop

/-! ## Runs -/

/-- Between two operations of a run: the engine is idle, an active calibration has a session and holds chip-select, and otherwise
only the host's own wish, `asked`, can have left it asserted. -/
structure Between (asked : Prop) (s : State) : Prop where
  idle : s.seq = .idle
  session : s.active = true → s.initialized = true
  held : s.active = true → s.cs = true
  reason : s.cs = true → s.active = true ∨ asked

theorem mode_of_active {s : State} (hinit : s.initialized = true) (hact : s.active = true) : s.mode = .calibrating := by
  simp [State.mode, hinit, hact]

theorem active_of_pointIndex {s t : State} (h : t.pointIndex = s.pointIndex) : t.active = s.active := by
  rw [State.active, State.active, h]

theorem not_usesBus_of_active {s t : State} {i : Instr} (hidle : s.seq = .idle) (hinit : s.initialized = true)
    (hact : s.active = true) (hexec : exec i s = .next t) : usesBus i = false := by
  by_contra hbus
  have hrefused := calibrationRefusesOtherBusOperations s i hidle (mode_of_active hinit hact) (by simpa using hbus)
  rw [hrefused] at hexec
  cases hexec

/-- An operation that is not the calibration's own leaves chip-select and the session alone while one is active. -/
theorem performed_of_active {s t : State} {i : Instr} (hidle : s.seq = .idle) (hop : i.channel = some .host ∨ i = .decode)
    (hstart : i ≠ .calstart) (hwait : ∀ tmo, i ≠ .calwait tmo) (hact : s.active = true) (hinit : s.initialized = true)
    (hexec : exec i s = .next t) : t.cs = s.cs ∧ t.initialized = s.initialized := by
  have hbus := not_usesBus_of_active hidle hinit hact hexec
  obtain rfl := performed_of_exec hidle hexec
  cases i with
  | read =>
    have hframe : (readTouch s).2.cs = s.cs ∧ (readTouch s).2.initialized = s.initialized := by
      unfold readTouch
      split_ifs <;> exact ⟨rfl, rfl⟩
    rw [performed]
    generalize readTouch s = x at hframe ⊢
    exact hframe
  | calpoint | reserved0 | reservedA | reservedB | reservedC | reservedD | reservedE | reservedF => exact ⟨rfl, rfl⟩
  | decode =>
    have hmasked : s.decodeEnabled = false := by simp [State.decodeEnabled, hact]
    rw [performed, hmasked]
    exact ⟨rfl, rfl⟩
  | calstart => exact absurd rfl hstart
  | calwait tmo => exact absurd rfl (hwait tmo)
  | init | cmd | waitresp | setreg | regdump => cases hbus
  | _ => simp [Instr.channel] at hop

theorem performed_idle {s t : State} {i : Instr} (hidle : s.seq = .idle) (hop : i.channel = some .host ∨ i = .decode)
    (hexec : exec i s = .next t) : t.seq = .idle ∧ (s.op = .none → t.op = .none) := by
  obtain rfl := performed_of_exec hidle hexec
  cases i with
  | cmd | waitresp | init | read | calstart | calpoint | calwait | setreg | regdump => exact ⟨rfl, fun _ => rfl⟩
  | reserved0 | reservedA | reservedB | reservedC | reservedD | reservedE | reservedF => exact ⟨hidle, id⟩
  | decode =>
    have htouch := decodeRun_touchOnly s
    rw [performed]
    split
    · rw [htouch]
      exact ⟨hidle, id⟩
    · exact ⟨hidle, id⟩
  | _ => simp [Instr.channel] at hop

/-- Each operation of a run leads from one moment between two operations to the next. -/
theorem Between.step {asked : Prop} {s t : State} {i : Instr} (h : Between asked s) (hop : i.channel = some .host ∨ i = .decode)
    (hexec : exec i s = .next t) : Between (asked ∨ AsksToHold i) t := by
  have hidle := (performed_idle h.idle hop hexec).1
  have hheld := heldBy_of_cs h.idle hop hexec
  obtain ⟨-, -, hpoint, -, hinit, -, -, -⟩ := eachRegisterHasItsWriters s t i h.idle hexec
  have hsession (hno : ∀ w ht r, i ≠ .init w ht r) : t.initialized = s.initialized := by
    by_contra hne
    obtain ⟨w, ht, r, hi⟩ := hinit (.inl hne)
    exact hno w ht r hi
  by_cases hstart : i = .calstart
  · subst hstart
    obtain rfl := performed_of_exec h.idle hexec
    cases hs : s.initialized with
    | false =>
      have hmasked : s.active = false := by
        by_contra hact
        exact absurd (hs.symm.trans (h.session (by simpa using hact))) (by simp)
      rw [performed_calstart_of_run (calStart_of_uninitialized hs)]
      exact ⟨rfl, h.session, h.held, fun hcs => (h.reason hcs).imp_right .inl⟩
    | true =>
      obtain ⟨b, u, hrun⟩ : ∃ b u, calStart s = (b, u) := ⟨_, _, rfl⟩
      obtain ⟨hcs, hindex⟩ := calStart_laws hs hrun
      have hkept := (hsession nofun).trans hs
      rw [performed_calstart_of_run hrun] at hkept ⊢
      have hact : u.active = b := by
        rw [State.active, hindex]
        cases b <;> rfl
      exact ⟨rfl, fun _ => hkept, fun ha => hcs.trans (hact.symm.trans ha), fun hc => .inl (hact.trans (hcs.symm.trans hc))⟩
  by_cases hwait : ∃ tmo, i = .calwait tmo
  · obtain ⟨tmo, rfl⟩ := hwait
    obtain rfl := performed_of_exec h.idle hexec
    have hkept := hsession nofun
    obtain ⟨o, u, hrun⟩ : ∃ o u, calWait tmo s = (o, u) := ⟨_, _, rfl⟩
    obtain ⟨hnone, hmore, hlast⟩ := calWait_laws hrun
    rw [performed_calwait_of_run hrun] at hkept ⊢
    match o with
    | none =>
      obtain ⟨hindex, hcs⟩ := hnone rfl
      have hact : u.active = false := by rw [State.active, hindex]; rfl
      exact ⟨rfl, fun ha => absurd (hact.symm.trans ha) (by simp), fun ha => absurd (hact.symm.trans ha) (by simp),
        fun hc => absurd (hcs.symm.trans hc) (by simp)⟩
    | some true =>
      obtain ⟨hlt, hindex, hcs⟩ := hmore rfl
      have hact : u.active = true := by
        rw [active_iff, hindex, BitVec.toNat_add]
        exact lt_of_le_of_lt (Nat.mod_le _ _) (Nat.add_lt_add_right hlt 1)
      exact ⟨rfl, fun _ => hkept.trans (h.session ((active_iff s).2 (Nat.lt_succ_of_lt hlt))), fun _ => hcs, fun _ => .inl hact⟩
    | some false =>
      obtain ⟨-, hindex, hcs⟩ := hlast rfl
      have hact : u.active = false := by rw [State.active, hindex]; rfl
      exact ⟨rfl, fun ha => absurd (hact.symm.trans ha) (by simp), fun ha => absurd (hact.symm.trans ha) (by simp),
        fun hc => absurd (hcs.symm.trans hc) (by simp)⟩
  · push Not at hwait
    have hact : t.active = s.active := active_of_pointIndex (by
      by_contra hne
      rcases hpoint hne with hi | ⟨tmo, hi⟩
      · exact hstart hi
      · exact hwait tmo hi)
    have hframe (ha : s.active = true) := performed_of_active h.idle hop hstart hwait ha (h.session ha) hexec
    rw [← hact] at hframe
    refine ⟨hidle, fun ha => (hframe ha).2.trans (h.session (hact.symm.trans ha)),
      fun ha => (hframe ha).1.trans (h.held (hact.symm.trans ha)), fun hc => ?_⟩
    rcases hheld hc with ⟨hi, -⟩ | ⟨tmo, hi, -⟩ | ⟨hasks, -⟩ | ⟨hs, -⟩
    · exact absurd hi hstart
    · exact absurd hi (hwait tmo)
    · exact .inr (.inr hasks)
    · exact (h.reason hs).imp (fun ha => hact.trans ha) .inl

theorem Between.run {asked : Prop} {s t : State} {ops : List Instr} (h : Between asked s) (hrun : Run ops s t) :
    Between (asked ∨ ∃ i ∈ ops, AsksToHold i) t := by
  induction hrun generalizing asked with
  | nil s => exact ⟨h.idle, h.session, h.held, fun hc => (h.reason hc).imp_right .inl⟩
  | cons i rest s u t hop hexec _ ih =>
    obtain ⟨hidle, hsession, hheld, hreason⟩ := ih (h.step hop hexec)
    refine ⟨hidle, hsession, hheld, fun hc => (hreason hc).imp_right ?_⟩
    rintro ((ha | ha) | ⟨j, hj, ha⟩)
    · exact .inl ha
    · exact .inr ⟨i, List.mem_cons_self, ha⟩
    · exact .inr ⟨j, List.mem_cons_of_mem i hj, ha⟩

/-- Settles O54: the law of chip-select of each operation, and the moments between the operations of a run. -/
theorem chipSelectIsReleasedUnlessHeld : Obligations.ChipSelectIsReleasedUnlessHeld := by
  refine ⟨fun s t i => released_of_failure, fun s t i => heldBy_of_cs, fun s t ops hidle hcs hact hrun => ?_⟩
  have hstart : Between False s := ⟨hidle, by simp [hact], by simp [hact], by simp [hcs]⟩
  obtain ⟨hend, -, hheld, hreason⟩ := hstart.run hrun
  exact ⟨hend, hheld, fun hc => (hreason hc).imp_right fun ha => ha.resolve_left id⟩

end Sys2Proof.Machine
end

section
/-! PROOFS. What a step and the sequencer's events leave alone (10_state R26, R32, 70_reset R300). -/

namespace Sys2Proof.Machine

/-! ## What the caller of a framing operation leaves alone -/

/-- The registers that no composite operation writes between two of its framing operations are the same: beside what `SameRegs`
leaves open, only the offset, the index, the initialised flag and the sink may differ. -/
structure CallerOnly (s t : State) : Prop where
  current : t.current = s.current
  lastReported : t.lastReported = s.lastReported
  width : t.width = s.width
  height : t.height = s.height
  rotated : t.rotated = s.rotated
  cfg : t.cfg = s.cfg
  inputs : t.inputs = s.inputs

theorem CallerOnly.refl (s : State) : CallerOnly s s := ⟨rfl, rfl, rfl, rfl, rfl, rfl, rfl⟩

theorem CallerOnly.trans {a b c : State} (h1 : CallerOnly a b) (h2 : CallerOnly b c) : CallerOnly a c :=
  ⟨h2.1.trans h1.1, h2.2.trans h1.2, h2.3.trans h1.3, h2.4.trans h1.4, h2.5.trans h1.5, h2.6.trans h1.6, h2.7.trans h1.7⟩

theorem CallerOnly.sameRegs {s t : State} (h : CallerOnly s t) : SameRegs { s with
    offset := t.offset, pointIndex := t.pointIndex, initialized := t.initialized, sink := t.sink } t :=
  ⟨rfl, h.1, h.2, rfl, rfl, h.3, h.4, h.5, h.6, h.7, rfl⟩

theorem BusOnly.callerOnly {s t : State} (h : BusOnly s t) : CallerOnly s t := by
  rw [h]
  exact ⟨rfl, rfl, rfl, rfl, rfl, rfl, rfl⟩

theorem startCmd_callerOnly (c : Command) (s : State) : CallerOnly s (startCmd c s) := ⟨rfl, rfl, rfl, rfl, rfl, rfl, rfl⟩

theorem goTo_callerOnly (q : Seq) (s : State) : CallerOnly s (s.goTo q) := ⟨rfl, rfl, rfl, rfl, rfl, rfl, rfl⟩

theorem ret_callerOnly (op : OpName) (r : Result) (s : State) : CallerOnly s (ret op r s) := ⟨rfl, rfl, rfl, rfl, rfl, rfl, rfl⟩

theorem startWait_callerOnly (tmo : Half) (hold : Bool) (s : State) : CallerOnly s (startWait tmo hold s) := by
  have hlatched : CallerOnly s (select (latchWait tmo hold s)) := ⟨rfl, rfl, rfl, rfl, rfl, rfl, rfl⟩
  exact (hlatched.trans (arm_link _ _).parse.bus.callerOnly).trans (goTo_callerOnly _ _)

theorem CallerOnly.startWait {s t : State} (h : CallerOnly s t) (tmo : Half) (hold : Bool) : CallerOnly s (startWait tmo hold t) :=
  h.trans (startWait_callerOnly tmo hold t)

theorem storeOffset_callerOnly (p : List Byte) (s : State) : CallerOnly s (storeOffset p s) := by
  cases p <;> exact ⟨rfl, rfl, rfl, rfl, rfl, rfl, rfl⟩

theorem initStepFailed_callerOnly (s : State) : CallerOnly s (initStepFailed s) := by
  unfold initStepFailed
  split
  · exact ⟨rfl, rfl, rfl, rfl, rfl, rfl, rfl⟩
  · exact ret_callerOnly _ _ s

theorem initNext_callerOnly (r : Reply) (s : State) : CallerOnly s (initNext r s) := by
  unfold initNext
  split
  · exact ⟨rfl, rfl, rfl, rfl, rfl, rfl, rfl⟩
  · split
    · exact ⟨rfl, rfl, rfl, rfl, rfl, rfl, rfl⟩
    · exact initStepFailed_callerOnly s
  · exact (storeOffset_callerOnly _ s).trans ⟨rfl, rfl, rfl, rfl, rfl, rfl, rfl⟩
  · exact ⟨rfl, rfl, rfl, rfl, rfl, rfl, rfl⟩
  · exact initStepFailed_callerOnly s

theorem calstartNext_callerOnly (r : Reply) (s : State) : CallerOnly s (calstartNext r s) := by
  unfold calstartNext
  split
  · exact ⟨rfl, rfl, rfl, rfl, rfl, rfl, rfl⟩
  · exact (storeOffset_callerOnly _ s).trans ⟨rfl, rfl, rfl, rfl, rfl, rfl, rfl⟩
  · exact ⟨rfl, rfl, rfl, rfl, rfl, rfl, rfl⟩
  · exact ⟨rfl, rfl, rfl, rfl, rfl, rfl, rfl⟩
  · split <;> exact ⟨rfl, rfl, rfl, rfl, rfl, rfl, rfl⟩

theorem setPointIndex_callerOnly (n : BitVec 3) (s : State) : CallerOnly s (s.setPointIndex n) :=
  ⟨rfl, rfl, rfl, rfl, rfl, rfl, rfl⟩

theorem setStep_callerOnly (n : BitVec 3) (s : State) : CallerOnly s (setStep n s) := ⟨rfl, rfl, rfl, rfl, rfl, rfl, rfl⟩

theorem calFail_callerOnly (s : State) : CallerOnly s (calFail s) := ⟨rfl, rfl, rfl, rfl, rfl, rfl, rfl⟩

theorem calwaitNext_callerOnly (r : Reply) (s : State) : CallerOnly s (calwaitNext r s) := by
  unfold calwaitNext
  split
  · exact (calFail_callerOnly s).trans (ret_callerOnly _ _ _)
  · have hnext := setPointIndex_callerOnly (s.pointIndex + 1) s
    dsimp only
    split
    · exact hnext.trans (ret_callerOnly _ _ _)
    · exact (hnext.trans (setStep_callerOnly _ _)).startWait _ _
  · exact (setStep_callerOnly _ s).trans (startCmd_callerOnly _ _)
  · exact ret_callerOnly _ _ s

theorem sinkPut_callerOnly (x : SinkItem) (s : State) : CallerOnly s (s.sinkPut x) := ⟨rfl, rfl, rfl, rfl, rfl, rfl, rfl⟩

theorem regdumpNext_callerOnly (r : Reply) (s : State) : CallerOnly s (regdumpNext r s) := by
  have hsink := sinkPut_callerOnly (.reply r) s
  unfold regdumpNext
  dsimp only
  split <;> exact hsink.trans ⟨rfl, rfl, rfl, rfl, rfl, rfl, rfl⟩

theorem backToCaller_callerOnly (r : Reply) (s : State) : CallerOnly s (backToCaller r s) := by
  unfold backToCaller
  split
  · exact ret_callerOnly _ _ s
  · exact ret_callerOnly _ _ s
  · exact initNext_callerOnly r s
  · exact calstartNext_callerOnly r s
  · exact calwaitNext_callerOnly r s
  · exact ret_callerOnly _ _ s
  · exact regdumpNext_callerOnly r s
  all_goals exact ⟨rfl, rfl, rfl, rfl, rfl, rfl, rfl⟩

/-! ## The parameters and the stimuli -/

/-- The parameters and the stimuli still to come are the same. -/
structure Fixed (s t : State) : Prop where
  cfg : t.cfg = s.cfg
  inputs : t.inputs = s.inputs

theorem Fixed.refl (s : State) : Fixed s s := ⟨rfl, rfl⟩

theorem Fixed.trans {a b c : State} (h1 : Fixed a b) (h2 : Fixed b c) : Fixed a c := ⟨h2.1.trans h1.1, h2.2.trans h1.2⟩

theorem CallerOnly.fixed {s t : State} (h : CallerOnly s t) : Fixed s t := ⟨h.cfg, h.inputs⟩

theorem LinkOnly.fixed {s t : State} (h : LinkOnly s t) : Fixed s t := h.parse.bus.callerOnly.fixed

theorem Fixed.goTo {s t : State} (h : Fixed s t) (q : Seq) : Fixed s (t.goTo q) := ⟨h.1, h.2⟩

theorem Fixed.setT {s t : State} (h : Fixed s t) (x : Transient) : Fixed s (t.setT x) := ⟨h.1, h.2⟩

theorem Fixed.toIdle {s t : State} (h : Fixed s t) : Fixed s (toIdle t) := ⟨h.1, h.2⟩

theorem Fixed.select {s t : State} (h : Fixed s t) : Fixed s (select t) := ⟨h.1, h.2⟩

theorem Fixed.unselect {s t : State} (h : Fixed s t) : Fixed s (unselect t) := ⟨h.1, h.2⟩

theorem Fixed.decodePacket {s t : State} (h : Fixed s t) (pkt : List Byte) : Fixed s (decodePacket pkt t) := by
  rw [decodePacket_eq]
  exact ⟨h.1, h.2⟩

theorem stepTx_fixed (k : Nat) (s : State) : Fixed s (stepTx k s) := by
  unfold stepTx
  split
  · dsimp only
    split
    · exact (sendByte_link _ _).fixed.goTo _
    · exact ((sendByte_link _ _).fixed.trans (arm_link _ _).fixed).goTo _
  · exact (arm_link _ _).fixed.goTo _

theorem stepWait_fixed (s : State) : Fixed s (stepWait s) := by
  unfold stepWait
  dsimp only
  split
  · exact (pollSig_link s).fixed.goTo _
  · exact ((pollSig_link s).fixed.trans (pollExpired_link _).fixed).goTo _

theorem stepPoll_fixed (s : State) : Fixed s (stepPoll s) := by
  have hpolled := (pollSig_link s).fixed
  have hexpired := hpolled.trans (pollExpired_link _).fixed
  unfold stepPoll
  dsimp only
  split
  · split
    · exact hexpired.toIdle
    · exact hexpired.select.goTo _
  · exact hpolled.toIdle

theorem stepPkt_fixed (k : Nat) (s : State) : Fixed s (stepPkt k s) := by
  have hrecv := (recvByte_link s).fixed
  unfold stepPkt
  dsimp only
  split
  · exact (hrecv.setT _).goTo _
  · exact ((hrecv.setT _).unselect.decodePacket _).goTo _

theorem stepReply_fixed (r : Reply) (s : State) : Fixed s (stepReply r s) :=
  (finish_bus s.t.hold (r, s)).callerOnly.fixed.trans (backToCaller_callerOnly _ _).fixed

/-- The sequencer takes no stimulus and writes no parameter. -/
theorem seqStep_fixed (s : State) : Fixed s (seqStep s) := by
  have hrecv := (recvByte_link s).fixed
  unfold seqStep
  split
  · exact .refl s
  · exact stepTx_fixed _ s
  · split
    · exact stepPoll_fixed s
    · exact stepWait_fixed s
  · exact hrecv.goTo _
  · exact (hrecv.setT _).goTo _
  · exact hrecv.goTo _
  · exact (hrecv.setT _).goTo _
  · exact (hrecv.setT _).goTo _
  · exact stepReply_fixed _ s
  · exact stepReply_fixed _ s
  · exact stepPkt_fixed _ s

/-! ## A busy engine -/

/-- Nothing the host or a caller of the framing engine presents is accepted while busy (R300, R66). -/
theorem exec_of_busy {s : State} {i : Instr} (hbusy : s.seq ≠ .idle) (hch : i.channel = some .host ∨ i.channel = some .wire) :
    exec i s = .next s := by
  cases i with
  | getVersion | enableTouch | disableTouch | calibrateMode | regStart | regRead | eepromWrite | reqFrame | cmd | waitresp | init
  | setreg | regdump => exact hostBus_of_busy hbusy _
  | regWrite addr data =>
    have hexec : exec (.regWrite addr data) s = execRegWrite addr data s := rfl
    rw [hexec, execRegWrite]
    split <;> exact hostBus_of_busy hbusy _
  | read | calstart | calpoint | calwait => exact whenIdle_of_busy hbusy _
  | reserved0 | reservedA | reservedB | reservedC | reservedD | reservedE | reservedF => rfl
  | _ => simp [Instr.channel] at hch

/-- Settles O7: the guards, and the sequencer's step, which takes no stimulus. -/
theorem busyEngineAcceptsNothing : Obligations.BusyEngineAcceptsNothing := by
  intro s hbusy
  refine ⟨fun i hch => exec_of_busy hbusy hch, fun ch bytes rest hch hin => ⟨?_, (seqStep_fixed s).inputs⟩,
    fun bytes rest hin => ⟨?_, (seqStep_fixed s).inputs⟩⟩
  · rw [step_of_inputs hin, takeStimulus_word_of_busy hch hbusy]
  · rw [step_of_inputs hin, takeStimulus_start_of_busy hbusy]

/-! ## The steps of the machine -/

/-- What a step that answers a next state has done: an event of the sequencer, or the next stimulus. -/
inductive Stepped (s : State) : State → Prop where
  | event : Stepped s (seqStep s)
  | operation (i : Instr) (rest : List Stimulus) (t : State) (idle : s.seq = .idle)
      (place : i.channel = some .host ∨ i.channel = some .wire) (run : exec i (s.setInputs rest) = .next t) : Stepped s t
  | response (bytes tail : List Byte) (rest : List Stimulus) (t : State)
      (run : respond bytes (offerBytes tail (s.setInputs rest)) = .next t) : Stepped s t
  | packet (bytes tail : List Byte) (rest : List Stimulus) (t : State)
      (run : execPacket bytes (offerBytes tail (s.setInputs rest)) = .next t) : Stepped s t
  | pending (bytes : List Byte) (rest : List Stimulus) : Stepped s (offer bytes (s.setInputs rest))
  | start (i : Instr) (rest : List Stimulus) (t : State) (idle : s.seq = .idle) (place : i.channel = some .host)
      (run : begin i (s.setInputs rest) = .next t) : Stepped s t
  | trigger (rest : List Stimulus) (t : State) (run : exec .decode (s.setInputs rest) = .next t) : Stepped s t
  | startTrigger (rest : List Stimulus) (t : State) (run : begin .decode (s.setInputs rest) = .next t) : Stepped s t
  | reset (rest : List Stimulus) : Stepped s (engineReset (s.setInputs rest))

/-- A decoded word answers only by running. -/
theorem runDecoded_next {run : Instr → State → Host.Outcome State Fault Refusal} {d : Decoded} {s t : State}
    (h : runDecoded run d s = .next t) : ∃ i rest, d = .ok i rest ∧ run i s = .next t := by
  cases d with
  | ok i rest => exact ⟨i, rest, rfl, h⟩
  | error e => cases h

/-- What is decoded at a place belongs to it (R90). -/
theorem channel_of_decode {p : Params} {ch : Channel} {bytes rest : List Byte} {i : Instr} (h : decode p ch bytes = .ok i rest) :
    i.channel = some ch := (encodeOfDecode p i ch bytes rest h).2.1

theorem takeFromChip_rsp {bytes : List Byte} {s t : State} (h : takeFromChip .rsp bytes s = .next t) :
    ∃ bytes' tail, respond bytes' (offerBytes tail s) = .next t := by
  cases hdec : decode s.cfg .rsp bytes with
  | error e => exact ⟨bytes, [], (takeFromChip_of_decode_error hdec).symm.trans h⟩
  | ok i tail =>
    have hch := channel_of_decode hdec
    replace h := (takeFromChip_of_decode_ok hdec).symm.trans h
    cases i with
    | rspFrame len status opcode payload => exact ⟨_, tail, h⟩
    | _ => simp [Instr.channel] at hch

theorem takeStimulus_word_stepped {ch : Channel} {bytes : List Byte} {rest : List Stimulus} {s t : State}
    (h : takeStimulus (.word ch bytes) rest s = .next t) : Stepped s t := by
  have accepted (hch : ch = .host ∨ ch = .wire) : Stepped s t := by
    by_cases hidle : s.seq = .idle
    · rw [takeStimulus_word_of_idle hch hidle] at h
      obtain ⟨i, tail, hdec, hrun⟩ := runDecoded_next h
      have hplace := channel_of_decode hdec
      refine .operation i rest t hidle ?_ hrun
      rcases hch with rfl | rfl
      · exact .inl hplace
      · exact .inr hplace
    · rw [takeStimulus_word_of_busy hch hidle] at h
      cases h
      exact .event
  cases ch with
  | host => exact accepted (.inl rfl)
  | wire => exact accepted (.inr rfl)
  | rsp =>
    obtain ⟨bytes', tail, hrun⟩ := takeFromChip_rsp h
    exact .response bytes' tail rest t hrun
  | pkt =>
    rw [takeStimulus_word_of_chip (.inr rfl)] at h
    cases hdec : decode (s.setInputs rest).cfg .pkt bytes with
    | error e =>
      cases (takeFromChip_of_decode_error hdec).symm.trans h
      exact .pending bytes rest
    | ok i tail =>
      have hrun := (exec_packet (channel_of_decode hdec) _).symm.trans ((takeFromChip_of_decode_ok hdec).symm.trans h)
      exact .packet _ tail rest t hrun

theorem stepped_of_step {s t : State} (h : step s = .next t) : Stepped s t := by
  cases hin : s.inputs with
  | nil =>
    cases (step_of_no_inputs hin).symm.trans h
    exact .event
  | cons st rest =>
    replace h := (step_of_inputs hin).symm.trans h
    cases st with
    | word ch bytes => exact takeStimulus_word_stepped h
    | start bytes =>
      by_cases hidle : s.seq = .idle
      · rw [takeStimulus_start_of_idle hidle] at h
        obtain ⟨i, tail, hdec, hrun⟩ := runDecoded_next h
        exact .start i rest t hidle (channel_of_decode hdec) hrun
      · rw [takeStimulus_start_of_busy hidle] at h
        cases h
        exact .event
    | trigger => exact .trigger rest t h
    | startTrigger => exact .startTrigger rest t h
    | reset =>
      cases h
      exact .reset rest

/-! ## The parameters -/

theorem exec_cfg {i : Instr} {s t : State} (hidle : s.seq = .idle) (h : exec i s = .next t) : t.cfg = s.cfg := by
  obtain rfl := performed_of_exec hidle h
  exact (performed_regs i s).cfg.trans permitted_fixed.1

theorem respond_cfg {bytes : List Byte} {s t : State} (h : respond bytes s = .next t) : t.cfg = s.cfg := by
  unfold respond at h
  dsimp only at h
  split at h <;> cases h
  · exact (backToCaller_callerOnly _ _).cfg.trans ((finish_bus _ _).cfg.trans ((recvFrame_parse _ _ _).cfg.trans (pollSig_link _).cfg))
  · rfl

theorem execPacket_cfg {bytes : List Byte} {s t : State} (h : execPacket bytes s = .next t) : t.cfg = s.cfg := by
  rw [execPacket_eq] at h
  cases h
  split
  · exact (packetRound_touchOnly (offerBytes bytes s)).sameRegs.cfg
  · rfl

theorem execDecode_cfg {s t : State} (h : exec .decode s = .next t) : t.cfg = s.cfg := by
  replace h : execDecode s = .next t := h
  unfold execDecode at h
  split at h <;> cases h
  · exact (decodeRun_touchOnly s).sameRegs.cfg
  · rfl

theorem beginDecode_cfg {s t : State} (h : begin .decode s = .next t) : t.cfg = s.cfg := by
  unfold begin at h
  dsimp only at h
  split at h <;> cases h
  · exact (arm_link s.cfg.tDec s).cfg
  · rfl

theorem startWait_cfg (tmo : Half) (hold : Bool) (s : State) : (startWait tmo hold s).cfg = s.cfg :=
  (startWait_callerOnly tmo hold s).cfg

/-- An idle engine that accepts an instruction event by event writes no parameter with its first event. -/
theorem begin_cfg {i : Instr} {s t : State} (hidle : s.seq = .idle) (h : begin i s = .next t) : t.cfg = s.cfg := by
  cases i with
  | cmd opcode payload cap hold =>
    replace h := run_eq_next_of_hostBus hidle h
    split at h <;> cases h
    rfl
  | waitresp tmo hold => cases run_eq_next_of_hostBus hidle h; exact startWait_cfg _ _ _
  | init width height rotated => cases run_eq_next_of_hostBus hidle h; rfl
  | read => exact exec_cfg (i := .read) hidle h
  | calstart =>
    cases run_eq_next_of_whenIdle hidle h
    unfold beginCalstart
    split <;> rfl
  | calpoint => exact exec_cfg (i := .calpoint) hidle h
  | calwait tmo =>
    cases run_eq_next_of_whenIdle hidle h
    unfold beginCalwait
    split
    · exact startWait_cfg _ _ _
    · rfl
  | setreg reg value =>
    cases run_eq_next_of_hostBus hidle h
    unfold beginSetreg
    split <;> rfl
  | regdump =>
    cases run_eq_next_of_hostBus hidle h
    unfold beginRegdump
    split <;> rfl
  | decode => exact beginDecode_cfg h
  | _ => cases h; rfl

/-- Settles O51: no case of a step writes a parameter. -/
theorem parametersAreConstant : Obligations.ParametersAreConstant := by
  intro s t hstep
  cases stepped_of_step hstep with
  | event => exact (seqStep_fixed s).cfg
  | operation i rest _ hidle _ hrun =>
    have h := exec_cfg (s := s.setInputs rest) hidle hrun
    exact h
  | response bytes tail rest _ hrun =>
    have h := respond_cfg hrun
    exact h
  | packet bytes tail rest _ hrun =>
    have h := execPacket_cfg hrun
    exact h
  | pending bytes rest => rfl
  | start i rest _ hidle _ hrun =>
    have h := begin_cfg (s := s.setInputs rest) hidle hrun
    exact h
  | trigger rest _ hrun =>
    have h := execDecode_cfg hrun
    exact h
  | startTrigger rest _ hrun =>
    have h := beginDecode_cfg hrun
    exact h
  | reset rest => rfl

end Sys2Proof.Machine
end

section
/-! PROOFS. The invariant of link, sequencer, byte index and calibration, kept by every step (10_state R36, 70_reset R302). -/

namespace Sys2Proof.Machine

/-! ## The trace -/

/-- The link's invariant on the trace alone: its level is `S.cs`, every exchange was selected and spaced (R36 I-e, R302). -/
structure TraceOk (s : State) : Prop where
  level : traceLevel s.trace = s.cs
  selected : traceSelected s.trace = true
  spaced : traceSpaced true s.trace = true

theorem LinkInv.traceOk {s : State} (h : LinkInv s) : TraceOk s := ⟨h.level, h.selected, h.spaced⟩

theorem TraceOk.of_eq {s t : State} (h : TraceOk s) (htrace : t.trace = s.trace) (hcs : t.cs = s.cs) : TraceOk t :=
  ⟨by rw [htrace, hcs, h.level], by rw [htrace, h.selected], by rw [htrace, h.spaced]⟩

/-- An event that is neither an exchange, nor a delay after one, nor a change of chip-select. -/
def Event.quiet : Event → Bool
  | .sel | .unsel | .xchg _ _ | .dly .interByte => false
  | .dly .retry | .arm _ | .expq _ | .sigq _ | .ret _ _ => true

theorem TraceOk.quiet {s t : State} {e : Event} (h : TraceOk s) (he : e.quiet = true) (htrace : t.trace = e :: s.trace)
    (hcs : t.cs = s.cs) : TraceOk t := by
  obtain ⟨hlevel, hselected, hspaced⟩ := h
  constructor <;> rw [htrace]
  · rw [hcs, ← hlevel]
    match e, he with
    | .dly .retry, _ | .arm _, _ | .expq _, _ | .sigq _, _ | .ret _ _, _ => rfl
  · match e, he with
    | .dly .retry, _ | .arm _, _ | .expq _, _ | .sigq _, _ | .ret _ _, _ => exact hselected
  · match e, he with
    | .dly .retry, _ | .arm _, _ | .expq _, _ | .sigq _, _ | .ret _ _, _ => exact hspaced

theorem TraceOk.select {s : State} (h : TraceOk s) : TraceOk (select s) := ⟨rfl, h.selected, h.spaced⟩

theorem TraceOk.unselect {s : State} (h : TraceOk s) : TraceOk (unselect s) := ⟨rfl, h.selected, h.spaced⟩

theorem TraceOk.ret {s : State} (h : TraceOk s) (op : OpName) (r : Result) : TraceOk (ret op r s) := h.quiet rfl (ret_trace op r s) rfl

theorem TraceOk.retNone {s : State} (h : TraceOk s) (op : OpName) : TraceOk (retNone op s) :=
  h.quiet (e := .ret op none) rfl rfl rfl

/-- What happens on the bus from `s` to `t` keeps chip-select, and the trace's invariant where it is asserted. -/
structure Safe (s t : State) : Prop where
  cs : t.cs = s.cs
  trace : TraceOk s → s.cs = true → TraceOk t

theorem Safe.refl (s : State) : Safe s s := ⟨rfl, fun h _ => h⟩

theorem Safe.trans {a b c : State} (h1 : Safe a b) (h2 : Safe b c) : Safe a c :=
  ⟨h2.cs.trans h1.cs, fun h hcs => h2.trace (h1.trace h hcs) (h1.cs.trans hcs)⟩

theorem Safe.of_quiet {s t : State} {e : Event} (he : e.quiet = true) (htrace : t.trace = e :: s.trace) (hcs : t.cs = s.cs) :
    Safe s t := ⟨hcs, fun h _ => h.quiet he htrace hcs⟩

theorem Safe.setT (s : State) (x : Transient) : Safe s (s.setT x) := ⟨rfl, fun h _ => h.of_eq rfl rfl⟩

/-- An exchange with its delay (R134). -/
theorem xchgD_safe (phase : Phase) (out : Byte) (s : State) : Safe s (xchgD phase out s).2 := by
  have htrace : (xchgD phase out s).2.trace = .dly .interByte :: .xchg out (chipByte phase s).1 :: (chipByte phase s).2.trace := rfl
  rw [chipByte_trace] at htrace
  have hcs := (xchgD_link phase out s).cs
  refine ⟨hcs, fun h hs => ⟨?_, ?_, ?_⟩⟩ <;> rw [htrace]
  · exact h.level.trans hcs.symm
  · exact Bool.and_eq_true_iff.2 ⟨h.level.trans hs, h.selected⟩
  · exact h.spaced

theorem recvByte_safe (s : State) : Safe s (recvByte s).2 := xchgD_safe _ _ s

theorem sendByte_safe (s : State) (out : Byte) : Safe s (sendByte s out) := xchgD_safe _ _ s

theorem pollSig_safe (s : State) : Safe s (pollSig s).2 := .of_quiet rfl (pollSig_trace s) (pollSig_link s).cs

theorem pollExpired_safe (s : State) : Safe s (pollExpired s).2 := .of_quiet rfl rfl rfl

theorem arm_safe (d : Half) (s : State) : Safe s (arm d s) := .of_quiet rfl (arm_trace d s) (arm_link d s).cs

theorem sendBytes_safe (bytes : List Byte) (s : State) : Safe s (sendBytes s bytes) := by
  induction bytes generalizing s with
  | nil => exact .refl s
  | cons b rest ih => exact (sendByte_safe s b).trans (ih _)

theorem waitLoop_safe (n : Nat) (s : State) : Safe s (waitLoop n s).2 := by
  induction n generalizing s with
  | zero =>
    simp only [waitLoop]
    split
    · exact pollSig_safe s
    · exact (pollSig_safe s).trans (pollExpired_safe _)
  | succ n ih =>
    simp only [waitLoop]
    split
    · exact pollSig_safe s
    · exact ((pollSig_safe s).trans (pollExpired_safe _)).trans (ih _)

theorem recvPayload_safe (n : Nat) (s : State) : Safe s (recvPayload n s).2 := by
  induction n generalizing s with
  | zero => exact .refl s
  | succ n ih => exact (recvByte_safe s).trans (ih _)

theorem recvFrame_safe (expected cap : Byte) (s : State) : Safe s (recvFrame expected cap s).2 := by
  have h1 := recvByte_safe s
  have h2 := (h1.trans (recvByte_safe _)).trans (.setT _ { (recvByte (recvByte s).2).2.t with len := (recvByte (recvByte s).2).1 })
  have h3 := h2.trans (recvByte_safe _)
  have h4 := h3.trans (recvByte_safe _)
  unfold recvFrame
  dsimp only
  split_ifs
  · exact h1
  · exact h2
  · exact h3
  · exact h4
  · exact h4
  · exact (h4.trans (recvPayload_safe _ _)).trans (.setT _ _)

theorem receive_safe (expected cap : Byte) (tmo : Half) (s : State) : Safe s (receive expected cap tmo s).2 := by
  have hwait : Safe s (waitReady tmo s).2 := (arm_safe tmo s).trans (waitLoop_safe _ _)
  unfold receive
  dsimp only
  split
  · exact hwait.trans (recvFrame_safe _ _ _)
  · exact hwait

theorem TraceOk.finish {r : Reply × State} (h : TraceOk r.2) (hold : Bool) : TraceOk (finish hold r).2 := by
  unfold Machine.finish
  dsimp only
  split_ifs
  · exact (h.of_eq rfl rfl : TraceOk (dropResp r.2)).unselect.of_eq rfl rfl
  · exact h.of_eq rfl rfl
  · exact h.unselect.of_eq rfl rfl

theorem TraceOk.runCmd {s : State} (h : TraceOk s) (c : Command) : TraceOk (runCmd c s).2 := by
  have hsent : TraceOk (Machine.select (latchCmd c.opcode c.payload c.cap c.hold s)) := TraceOk.select (h.of_eq rfl rfl)
  exact ((sendBytes_safe _ _).trans (receive_safe _ _ _ _)).trace hsent rfl |>.finish _

theorem TraceOk.waitResp {s : State} (h : TraceOk s) (tmo : Half) (hold : Bool) : TraceOk (waitResp tmo hold s).2 := by
  have hsent : TraceOk (Machine.select (latchWait tmo hold s)) := TraceOk.select (h.of_eq rfl rfl)
  exact (receive_safe _ _ _ _).trace hsent rfl |>.finish _

/-- The trace's invariant goes through every composite operation. -/
theorem busRel_traceOk : BusRel fun s t => TraceOk s → TraceOk t where
  refl _ h := h
  trans h1 h2 h := h2 (h1 h)
  runCmd c _ h := h.runCmd c
  waitResp tmo hold _ h := h.waitResp tmo hold
  startAttempt _ _ h := h.of_eq rfl rfl
  retry _ h := h.quiet (e := .dly .retry) rfl rfl rfl

theorem TraceOk.storeOffset {s : State} (h : TraceOk s) (p : List Byte) : TraceOk (storeOffset p s) :=
  h.of_eq (storeOffset_trace p s) (storeOffset_cs p s)

theorem TraceOk.calFail {s : State} (h : TraceOk s) : TraceOk (calFail s) :=
  (h.of_eq rfl rfl : TraceOk (s.setPointIndex idleIndex)).unselect

theorem TraceOk.packetRound {s : State} (h : TraceOk s) : TraceOk (packetRound s) := by
  obtain ⟨c, x, hround⟩ := packetRound_eq s
  have hrecv := (recvPayload_safe Config.pktLen (Machine.select s)).trace h.select rfl
  rw [hround]
  exact (hrecv.of_eq rfl rfl : TraceOk ((recvPayload Config.pktLen (Machine.select s)).2.setT x)).unselect.of_eq rfl rfl

theorem TraceOk.decodeRun {s : State} (h : TraceOk s) : TraceOk (decodeRun s) := by
  have hloop := decodeLoop_rel (R := fun s t => TraceOk s → TraceOk t) (fun h1 h2 h => h2 (h1 h))
    (fun s h => h.quiet rfl (pollSig_trace s) (pollSig_link s).cs) (fun s h => h.quiet (e := .expq _) rfl rfl rfl)
    fun s h => h.packetRound
  exact hloop _ _ (h.quiet rfl (arm_trace s.cfg.tDec s) (arm_link s.cfg.tDec s).cs)

/-! ## The invariant of an idle engine -/

theorem Inv.of_idle {s : State} (hidle : Idle s) (htrace : TraceOk s) (hrange : s.pointIndex.toNat ≤ 5)
    (hsession : s.active = true → s.initialized = true) (hheld : s.active = true → s.cs = true) : Inv s := by
  obtain ⟨hseq, hop⟩ := hidle
  refine ⟨⟨htrace.level, htrace.selected, htrace.spaced, ?_, ?_⟩, by simp [SeqInv, hseq, hop], ?_,
    ⟨hrange, hsession, fun _ => hheld, ?_, ?_, ?_, ?_⟩⟩
  · simp [hseq, Seq.exchanging]
  · simp [hseq]
  · simp [IndexInv, hseq, Seq.index]
  all_goals exact fun hbusy => absurd hseq hbusy

theorem Inv.of_inactive_idle {s : State} (hidle : Idle s) (htrace : TraceOk s) (hrange : s.pointIndex.toNat ≤ 5)
    (hact : s.active = false) : Inv s :=
  .of_idle hidle htrace hrange (fun h => absurd (hact.symm.trans h) (by simp)) fun h => absurd (hact.symm.trans h) (by simp)

/-- Settles O52: the reset state is an idle engine with an empty trace. -/
theorem invariantHoldsAtReset : Obligations.InvariantHoldsAtReset :=
  .of_inactive_idle ⟨rfl, rfl⟩ ⟨rfl, rfl, rfl⟩ (by decide) rfl

/-- The invariant says nothing of the answers to come and of the stimuli. -/
theorem Inv.of_env {s : State} (h : Inv s) (env : Env) (inputs : List Stimulus) : Inv { s with env := env, inputs := inputs } := by
  obtain ⟨⟨level, selected, spaced, held, packet⟩, seq, index, ⟨range, session, idle, waiting, finishing, starting, other⟩⟩ := h
  exact ⟨⟨level, selected, spaced, held, packet⟩, seq, index, ⟨range, session, idle, waiting, finishing, starting, other⟩⟩

theorem Inv.idle {s : State} (h : Inv s) (hseq : s.seq = .idle) : Idle s := ⟨hseq, h.seq.1 hseq⟩

/-- A reset leaves no operation and no calibration, and `UNSEL` is its event. -/
theorem Inv.engineReset {s : State} (h : Inv s) : Inv (engineReset s) :=
  .of_inactive_idle ⟨rfl, rfl⟩ ⟨rfl, h.link.selected, h.link.spaced⟩ (Nat.le_refl 5) rfl

/-! ## The calibration of a busy engine -/

/-- What the invariant says of the calibration while an operation is in progress. -/
structure CalBusy (s : State) : Prop where
  range : s.pointIndex.toNat ≤ 5
  session : s.active = true → s.initialized = true
  waiting : s.op = .calwait → s.t.step = 0 → s.active = true ∧ s.t.hold = true
  finishing : s.op = .calwait → s.t.step ≠ 0 → s.active = false
  starting : s.op = .calstart → s.initialized = true ∧ s.active = false ∧ (3 ≤ s.t.step.toNat → s.t.hold = true)
  other : s.op ≠ .calwait → s.op ≠ .calstart → s.active = false

theorem CalInv.busy {s : State} (h : CalInv s) (hbusy : s.seq ≠ .idle) : CalBusy s :=
  ⟨h.range, h.session, h.waiting hbusy, h.finishing hbusy, h.starting hbusy, h.other hbusy⟩

theorem CalBusy.inv {s : State} (h : CalBusy s) (hbusy : s.seq ≠ .idle) : CalInv s :=
  ⟨h.range, h.session, fun hidle => absurd hidle hbusy, fun _ => h.waiting, fun _ => h.finishing, fun _ => h.starting,
    fun _ => h.other⟩

/-- The calibration depends on five registers. -/
theorem CalBusy.of_eq {s t : State} (h : CalBusy s) (hop : t.op = s.op) (hindex : t.pointIndex = s.pointIndex)
    (hinit : t.initialized = s.initialized) (hstep : t.t.step = s.t.step) (hhold : t.t.hold = s.t.hold) : CalBusy t := by
  have hact := active_of_pointIndex hindex
  obtain ⟨range, session, waiting, finishing, starting, other⟩ := h
  constructor <;> simpa only [hop, hindex, hinit, hstep, hhold, hact]

/-- An operation without an active calibration, and its progress. -/
theorem CalBusy.of_inactive {s : State} (hrange : s.pointIndex.toNat ≤ 5) (hact : s.active = false)
    (hwait : s.op = .calwait → s.t.step ≠ 0)
    (hstart : s.op = .calstart → s.initialized = true ∧ (3 ≤ s.t.step.toNat → s.t.hold = true)) : CalBusy s where
  range := hrange
  session h := absurd (hact.symm.trans h) (by simp)
  waiting hop hstep := absurd hstep (hwait hop)
  finishing _ _ := hact
  starting hop := ⟨(hstart hop).1, hact, (hstart hop).2⟩
  other _ _ := hact

/-! ## Within an operation -/

theorem goTo_indexInv (s : State) (q : Seq) : IndexInv (s.goTo q) := fun _ hk => State.goTo_k s hk

/-- A state of the sequencer inside an operation. -/
theorem Inv.of_busy {s : State} {q : Seq} (htrace : TraceOk s) (hop : s.op ≠ .none) (hcal : CalBusy s) (hq : q ≠ .idle)
    (hheld : q.exchanging s.op = true → s.cs = true) (hpkt : ∀ k, q = .pkt k → s.op = .decode) : Inv (s.goTo q) where
  link := ⟨htrace.level, htrace.selected, htrace.spaced, hheld, hpkt⟩
  seq := iff_of_false hq hop
  index := goTo_indexInv s q
  cal := CalBusy.inv (hcal.of_eq rfl rfl rfl rfl rfl) hq

theorem startCmd_inv {c : Command} {s : State} (htrace : TraceOk s) (hop : s.op ≠ .none)
    (hcal : CalBusy (s.setT { s.t with hold := c.hold })) : Inv (startCmd c s) :=
  .of_busy (TraceOk.select (htrace.of_eq rfl rfl)) hop (hcal.of_eq rfl rfl rfl rfl rfl) nofun (fun _ => rfl) nofun

theorem startWait_inv {tmo : Half} {hold : Bool} {s : State} (htrace : TraceOk s) (hop : s.op ≠ .none)
    (hcal : CalBusy (s.setT { s.t with hold := hold })) : Inv (startWait tmo hold s) := by
  have hsel : TraceOk (select (latchWait tmo hold s)) := TraceOk.select (htrace.of_eq rfl rfl)
  have hlink := arm_link tmo (select (latchWait tmo hold s))
  have hbus := hlink.parse.bus
  refine .of_busy ((arm_safe tmo _).trace hsel rfl) (hbus.op ▸ hop) ?_ nofun (fun _ => hlink.cs) nofun
  have hstep := congrArg Transient.step hlink.t
  have hhold := congrArg Transient.hold hlink.t
  exact hcal.of_eq hbus.op hbus.pointIndex hbus.initialized hstep hhold

/-- A framing operation has ended with this reply, and its caller has not yet gone on. -/
structure Finished (r : Reply) (s : State) : Prop where
  trace : TraceOk s
  op : s.op ≠ .none
  cal : CalBusy s
  cs : s.cs = (!r.isErr && s.t.hold)

/-- The return to the host without an active calibration. -/
theorem ret_inv_of_inactive {op : OpName} {r : Result} {s : State} (htrace : TraceOk s) (hrange : s.pointIndex.toNat ≤ 5)
    (hact : s.active = false) : Inv (ret op r s) :=
  .of_inactive_idle (ret_idle op r s) (htrace.ret op r) hrange hact

/-- A command that an operation without an active calibration starts. -/
theorem startCmd_inv_of_inactive {c : Command} {s : State} (htrace : TraceOk s) (hop : s.op ≠ .none) (hrange : s.pointIndex.toNat ≤ 5)
    (hact : s.active = false) (hwait : s.op = .calwait → s.t.step ≠ 0)
    (hstart : s.op = .calstart → s.initialized = true ∧ (3 ≤ s.t.step.toNat → c.hold = true)) : Inv (startCmd c s) :=
  startCmd_inv htrace hop (.of_inactive hrange hact hwait hstart)

theorem storeOffset_pointIndex (p : List Byte) (s : State) : (storeOffset p s).pointIndex = s.pointIndex := by cases p <;> rfl

theorem storeOffset_initialized (p : List Byte) (s : State) : (storeOffset p s).initialized = s.initialized := by cases p <;> rfl

theorem storeOffset_active (p : List Byte) (s : State) : (storeOffset p s).active = s.active :=
  active_of_pointIndex (storeOffset_pointIndex p s)

/-! ## The callers go on -/

/-- An operation other than the calibration's own starts its next command. -/
theorem startCmd_inv_of_other {c : Command} {s : State} {o : OpName} (hop : s.op = o) (ho : o ≠ .none ∧ o ≠ .calwait ∧ o ≠ .calstart)
    (htrace : TraceOk s) (hrange : s.pointIndex.toNat ≤ 5) (hact : s.active = false) : Inv (startCmd c s) := by
  subst hop
  exact startCmd_inv_of_inactive htrace ho.1 hrange hact (fun h => absurd h ho.2.1) fun h => absurd h ho.2.2

theorem initStepFailed_inv {s : State} (hop : s.op = .init) (htrace : TraceOk s) (hrange : s.pointIndex.toNat ≤ 5)
    (hact : s.active = false) : Inv (initStepFailed s) := by
  unfold initStepFailed
  split
  · exact startCmd_inv_of_other (s := startAttempt _ s) hop (by decide) (htrace.of_eq rfl rfl) hrange hact
  · exact ret_inv_of_inactive htrace hrange hact

section
variable {r : Reply} {s : State}

theorem initNext_inv (hop : s.op = .init) (htrace : TraceOk s) (hrange : s.pointIndex.toNat ≤ 5) (hact : s.active = false) :
    Inv (initNext r s) := by
  unfold initNext
  split
  · exact startCmd_inv_of_other (s := setStep 1 s) hop (by decide) (htrace.of_eq rfl rfl) hrange hact
  · split
    · have hdelayed : TraceOk ((delay .retry s).setT { s.t with retried := true }) := htrace.quiet (e := .dly .retry) rfl rfl rfl
      exact startCmd_inv_of_other (s := (delay .retry s).setT _) hop (by decide) hdelayed hrange hact
    · exact initStepFailed_inv hop htrace hrange hact
  · rename_i p _
    have hstored : TraceOk (setStep 2 (storeOffset p s)) := (htrace.storeOffset p).of_eq rfl rfl
    exact startCmd_inv_of_other (s := setStep 2 (storeOffset p s)) ((storeOffset_op p s).trans hop) (by decide) hstored
      ((storeOffset_pointIndex p s).symm ▸ hrange) ((storeOffset_active p s).trans hact)
  · exact ret_inv_of_inactive (s := s.setInitialized true) (htrace.of_eq rfl rfl) hrange hact
  · exact initStepFailed_inv hop htrace hrange hact

theorem regdumpNext_inv (hop : s.op = .regdump) (htrace : TraceOk s) (hrange : s.pointIndex.toNat ≤ 5) (hact : s.active = false) :
    Inv (regdumpNext r s) := by
  have hput : TraceOk (s.sinkPut (.reply r)) := htrace.of_eq rfl rfl
  unfold regdumpNext
  dsimp only
  split
  · exact startCmd_inv_of_other (s := setStep 1 ((s.sinkPut (.reply r)).setT _)) hop (by decide) (hput.of_eq rfl rfl) hrange hact
  · exact .of_inactive_idle (retNone_idle _ _) (hput.retNone _) hrange hact

/-- CALSTART goes on: what its progress says of the index and of chip-select (R212). -/
theorem calstartNext_inv (h : Finished r s) (hop : s.op = .calstart) : Inv (calstartNext r s) := by
  obtain ⟨htrace, hnone, hcal, hcs⟩ := h
  obtain ⟨hinit, hact, hhold⟩ := hcal.starting hop
  have next {c : Command} {n : BitVec 3} {u : State} (hu : TraceOk u) (huop : u.op = s.op) (hindex : u.pointIndex = s.pointIndex)
      (huinit : u.initialized = s.initialized) (hn : 3 ≤ n.toNat → c.hold = true) : Inv (startCmd c (setStep n u)) :=
    startCmd_inv_of_inactive (s := setStep n u) (hu.of_eq rfl rfl) (huop.trans_ne hnone) (hindex.symm ▸ hcal.range)
      ((active_of_pointIndex hindex).trans hact) (fun hw => absurd ((huop.trans hop).symm.trans hw) (by decide))
      fun _ => ⟨huinit.trans hinit, hn⟩
  unfold calstartNext
  split
  · exact next htrace rfl rfl rfl fun h3 => absurd h3 (by decide)
  · exact next (htrace.storeOffset _) (storeOffset_op _ s) (storeOffset_pointIndex _ s) (storeOffset_initialized _ s)
      fun h3 => absurd h3 (by decide)
  · exact next htrace rfl rfl rfl fun _ => rfl
  · rename_i h0 h1 h2
    have hstep : 3 ≤ s.t.step.toNat := by
      rcases hn : s.t.step.toNat with _ | _ | _ | n
      · exact absurd hn h0
      · exact absurd hn h1
      · exact absurd hn h2
      · exact Nat.le_add_left 3 n
    have hheld : s.cs = true := hcs.trans (hhold hstep)
    have hput : TraceOk (s.setPointIndex 0) := htrace.of_eq rfl rfl
    exact .of_idle (ret_idle _ _ _) (hput.ret _ _) (Nat.zero_le 5) (fun _ => hinit) fun _ => hheld
  · split
    · have hattempt : TraceOk ((startAttempt (s.t.attempt + 1) s).setPointIndex idleIndex) := htrace.of_eq rfl rfl
      exact startCmd_inv_of_inactive hattempt hnone (Nat.le_refl 5) rfl (fun hw => absurd (hop.symm.trans hw) (by decide))
        fun _ => ⟨hinit, fun h3 => absurd (show 3 ≤ 0 from h3) (by decide)⟩
    · exact ret_inv_of_inactive (s := s.setPointIndex idleIndex) (htrace.of_eq rfl rfl) (Nat.le_refl 5) rfl

/-- CALWAIT goes on (R220, R221). -/
theorem calwaitNext_inv (h : Finished r s) (hop : s.op = .calwait) : Inv (calwaitNext r s) := by
  obtain ⟨htrace, hnone, hcal, hcs⟩ := h
  unfold calwaitNext
  split
  · exact ret_inv_of_inactive htrace.calFail (Nat.le_refl 5) rfl
  · rename_i hstep
    obtain ⟨hact, hhold⟩ := hcal.waiting hop (by simpa using congrArg (BitVec.ofNat 3) hstep)
    have hlt := (active_iff s).1 hact
    have hindex : (s.pointIndex + 1).toNat ≤ 5 := by
      rw [BitVec.toNat_add]
      exact (Nat.mod_le _ _).trans (Nat.succ_le_succ hlt.le)
    have hput : TraceOk (s.setPointIndex (s.pointIndex + 1)) := htrace.of_eq rfl rfl
    dsimp only
    split
    · have hheld : s.cs = true := hcs.trans hhold
      exact .of_idle (ret_idle _ _ _) (hput.ret _ _) hindex (fun _ => hcal.session hact) fun _ => hheld
    · rename_i hpast
      refine startWait_inv (s := setStep 1 (s.setPointIndex (s.pointIndex + 1))) (hput.of_eq rfl rfl) hnone ?_
      have hact' : (s.setPointIndex (s.pointIndex + 1)).active = false := by simpa using hpast
      exact .of_inactive hindex hact' (fun _ => (by decide : (1 : BitVec 3) ≠ 0)) fun hs => absurd (hop.symm.trans hs) (by decide)
  · rename_i hstep
    have hact := hcal.finishing hop fun h0 => by simp [h0] at hstep
    exact startCmd_inv_of_inactive (s := setStep 2 s) (htrace.of_eq rfl rfl) hnone hcal.range hact (fun _ => (by decide : (2 : BitVec 3) ≠ 0))
      fun hs => absurd (hop.symm.trans hs) (by decide)
  · rename_i hstep _
    have hact := hcal.finishing hop fun h0 => hstep (by simp [h0])
    exact ret_inv_of_inactive htrace hcal.range hact

/-- The caller of a framing operation that has ended keeps the invariant. -/
theorem backToCaller_inv (h : Finished r s) : Inv (backToCaller r s) := by
  have other {o : OpName} (hop : s.op = o) (hw : o ≠ .calwait) (hs : o ≠ .calstart) : s.active = false :=
    h.cal.other (hop.trans_ne hw) (hop.trans_ne hs)
  have idle {o : OpName} (hop : s.op = o) (hw : o ≠ .calwait) (hs : o ≠ .calstart) : Inv (toIdle s) :=
    .of_inactive_idle ⟨rfl, rfl⟩ (h.trace.of_eq rfl rfl) h.cal.range (other hop hw hs)
  unfold backToCaller
  split
  case h_1 hop | h_2 hop | h_6 hop => exact ret_inv_of_inactive h.trace h.cal.range (other hop (by decide) (by decide))
  case h_3 hop => exact initNext_inv hop h.trace h.cal.range (other hop (by decide) (by decide))
  case h_4 hop => exact calstartNext_inv h hop
  case h_5 hop => exact calwaitNext_inv h hop
  case h_7 hop => exact regdumpNext_inv hop h.trace h.cal.range (other hop (by decide) (by decide))
  all_goals exact idle ‹_› (by decide) (by decide)

end

end Sys2Proof.Machine
end

section
/-! PROOFS. Every step keeps the invariant: the sequencer's events, the chip's frames and packets, and the operations of an idle
engine (10_state R26, 44_calibration R210, R224). -/

namespace Sys2Proof.Machine

/-! ## The sequencer's events -/

/-- From `s` to `u` bytes, polls and the timer happened inside one framing operation. -/
structure Moves (s u : State) : Prop where
  parse : ParseOnly s u
  safe : Safe s u
  step : u.t.step = s.t.step
  hold : u.t.hold = s.t.hold

theorem Moves.trans {a b c : State} (h1 : Moves a b) (h2 : Moves b c) : Moves a c :=
  ⟨h1.parse.trans h2.parse, h1.safe.trans h2.safe, h2.step.trans h1.step, h2.hold.trans h1.hold⟩

theorem Moves.of_link {s u : State} (h : LinkOnly s u) (hsafe : Safe s u) : Moves s u :=
  ⟨h.parse, hsafe, congrArg Transient.step h.t, congrArg Transient.hold h.t⟩

theorem Moves.setT {s u : State} (h : Moves s u) {x : Transient} (hstep : x.step = u.t.step) (hhold : x.hold = u.t.hold) :
    Moves s (u.setT x) := h.trans ⟨rfl, .setT u x, hstep, hhold⟩

theorem recvByte_moves (s : State) : Moves s (recvByte s).2 := .of_link (recvByte_link s) (recvByte_safe s)

theorem pollSig_moves (s : State) : Moves s (pollSig s).2 := .of_link (pollSig_link s) (pollSig_safe s)

theorem pollExpired_moves (s : State) : Moves s (pollExpired s).2 := .of_link (pollExpired_link s) (pollExpired_safe s)

theorem arm_moves (d : Half) (s : State) : Moves s (arm d s) := .of_link (arm_link d s) (arm_safe d s)

theorem sendByte_moves (b : Byte) (s : State) : Moves s (sendByte s b) := .of_link (sendByte_link s b) (sendByte_safe s b)

theorem recvFrame_moves (expected cap : Byte) (s : State) : Moves s (recvFrame expected cap s).2 := by
  have h1 := recvByte_moves s
  have h2 := (h1.trans (recvByte_moves _)).setT (x := { (recvByte (recvByte s).2).2.t with len := (recvByte (recvByte s).2).1 }) rfl rfl
  have h3 := h2.trans (recvByte_moves _)
  have h4 := h3.trans (recvByte_moves _)
  unfold recvFrame
  dsimp only
  split_ifs
  · exact h1
  · exact h2
  · exact h3
  · exact h4
  · exact h4
  · exact (h4.trans (.of_link (recvPayload_link _ _) (recvPayload_safe _ _))).setT rfl rfl

theorem ne_idle_of_exchanging {q : Seq} {o : OpName} (h : q.exchanging o = true) : q ≠ .idle := by
  rintro rfl
  cases h

/-- `Finish` leaves the progress and the operands alone (R147). -/
theorem finish_progress (hold : Bool) (r : Reply × State) :
    (finish hold r).2.t.step = r.2.t.step ∧ (finish hold r).2.t.hold = r.2.t.hold := by
  unfold finish
  dsimp only
  split_ifs <;> exact ⟨rfl, rfl⟩

section
variable {s u : State} {r : Reply}

theorem Inv.moved (h : Inv s) (hex : s.seq.exchanging s.op = true) (hm : Moves s u) : CalBusy u :=
  (h.cal.busy (ne_idle_of_exchanging hex)).of_eq hm.parse.bus.op hm.parse.bus.pointIndex hm.parse.bus.initialized hm.step hm.hold

theorem Inv.busy_op (h : Inv s) (hex : s.seq.exchanging s.op = true) : s.op ≠ .none :=
  fun hop => ne_idle_of_exchanging hex (h.seq.2 hop)

/-- The next state of the sequencer inside a framing operation. -/
theorem Inv.move (h : Inv s) (hex : s.seq.exchanging s.op = true) (hm : Moves s u) {q : Seq} (hq : q ≠ .idle)
    (hpkt : ∀ k, q = .pkt k → s.op = .decode) : Inv (u.goTo q) := by
  have hcs := h.link.held hex
  have hop := hm.parse.bus.op
  exact .of_busy (hm.safe.trace h.link.traceOk hcs) (hop ▸ h.busy_op hex) (h.moved hex hm) hq (fun _ => hm.safe.cs.trans hcs)
    fun k hk => hop.trans (hpkt k hk)

/-- The end of a framing operation, whatever its reply. -/
theorem Inv.finished (h : Inv s) (hex : s.seq.exchanging s.op = true) (hm : Moves s u) :
    Finished r (finish s.t.hold (r, u)).2 := by
  have hcs := h.link.held hex
  have hbus := finish_bus s.t.hold (r, u)
  obtain ⟨hstep, hhold⟩ := finish_progress s.t.hold (r, u)
  refine ⟨TraceOk.finish (hm.safe.trace h.link.traceOk hcs) _, ?_, ?_, ?_⟩
  · rw [hbus.op, hm.parse.bus.op]
    exact h.busy_op hex
  · exact (h.moved hex hm).of_eq hbus.op hbus.pointIndex hbus.initialized hstep hhold
  · rw [finish_cs, hhold, hm.hold, hm.safe.cs, hcs, Bool.and_true]

theorem stepTx_inv (k : Nat) (h : Inv s) (hex : s.seq.exchanging s.op = true) : Inv (stepTx k s) := by
  unfold stepTx
  split
  · dsimp only
    split
    · exact h.move hex (sendByte_moves _ s) nofun nofun
    · exact h.move hex ((sendByte_moves _ s).trans (arm_moves _ _)) nofun nofun
  · exact h.move hex (arm_moves _ s) nofun nofun

theorem stepWait_inv (h : Inv s) (hex : s.seq.exchanging s.op = true) : Inv (stepWait s) := by
  unfold stepWait
  dsimp only
  split
  · exact h.move hex (pollSig_moves s) nofun nofun
  · refine h.move hex ((pollSig_moves s).trans (pollExpired_moves _)) ?_ ?_ <;> split <;> exact nofun

theorem stepHdr_inv (h : Inv s) (hex : s.seq.exchanging s.op = true) : Inv (stepHdr s) := by
  refine h.move hex (recvByte_moves s) ?_ ?_ <;> split <;> exact nofun

theorem stepLen_inv (h : Inv s) (hex : s.seq.exchanging s.op = true) : Inv (stepLen s) := by
  unfold stepLen
  refine h.move hex ((recvByte_moves s).setT ?_ ?_) ?_ ?_
  · rfl
  · rfl
  all_goals split <;> exact nofun

theorem stepStatus_inv (h : Inv s) (hex : s.seq.exchanging s.op = true) : Inv (stepStatus s) := by
  refine h.move hex (recvByte_moves s) ?_ ?_ <;> split <;> exact nofun

theorem stepOpcode_inv (h : Inv s) (hex : s.seq.exchanging s.op = true) : Inv (stepOpcode s) := by
  unfold stepOpcode
  refine h.move hex ((recvByte_moves s).setT ?_ ?_) ?_ ?_
  · rfl
  · rfl
  all_goals split_ifs <;> exact nofun

theorem stepPayload_inv (k : Nat) (h : Inv s) (hex : s.seq.exchanging s.op = true) : Inv (stepPayload k s) := by
  unfold stepPayload
  refine h.move hex ((recvByte_moves s).setT ?_ ?_) ?_ ?_
  · rfl
  · rfl
  all_goals split <;> exact nofun

theorem stepReply_inv (r : Reply) (h : Inv s) (hex : s.seq.exchanging s.op = true) : Inv (stepReply r s) :=
  backToCaller_inv (h.finished hex ⟨rfl, .refl s, rfl, rfl⟩)

/-- DECODE polls between two packets. -/
theorem stepPoll_inv (h : Inv s) (hseq : s.seq = .wait) (hop : s.op = .decode) : Inv (stepPoll s) := by
  have hbusy : s.seq ≠ .idle := by simp [hseq]
  have hact : s.active = false := h.cal.other hbusy (by simp [hop]) (by simp [hop])
  have hpolled : TraceOk (pollSig s).2 := h.link.traceOk.quiet rfl (pollSig_trace s) (pollSig_link s).cs
  have hexpired : TraceOk (pollExpired (pollSig s).2).2 := hpolled.quiet (e := .expq _) rfl rfl rfl
  have hpoll := pollSig_moves s
  have hboth := hpoll.trans (pollExpired_moves _)
  have idle {v : State} (hv : Moves s v) (htrace : TraceOk v) : Inv (toIdle v) :=
    have hindex := hv.parse.bus.pointIndex
    .of_inactive_idle ⟨rfl, rfl⟩ (htrace.of_eq rfl rfl) (hindex.symm ▸ h.cal.range : v.pointIndex.toNat ≤ 5)
      ((active_of_pointIndex hindex).trans hact : v.active = false)
  unfold stepPoll
  dsimp only
  split
  · split
    · exact idle hboth hexpired
    · have hbus := hboth.parse.bus
      have hcal := (h.cal.busy hbusy).of_eq hbus.op hbus.pointIndex hbus.initialized hboth.step hboth.hold
      exact .of_busy hexpired.select (hbus.op.trans_ne (by simp [hop])) (hcal.of_eq rfl rfl rfl rfl rfl) nofun (fun _ => rfl)
        fun _ _ => hbus.op.trans hop
  · exact idle hpoll hpolled

/-- A packet's byte; after the fifth chip-select is released and DECODE goes on. -/
theorem stepPkt_inv (k : Nat) (h : Inv s) (hseq : s.seq = .pkt k) : Inv (stepPkt k s) := by
  have hop := h.link.packet k hseq
  have hex : s.seq.exchanging s.op = true := by rw [hseq]; rfl
  have hm : Moves s ((recvByte s).2.setT { (recvByte s).2.t with
      pkt := (if k = 0 then [] else (recvByte s).2.t.pkt) ++ [(recvByte s).1] }) := (recvByte_moves s).setT rfl rfl
  unfold stepPkt
  dsimp only
  split
  · exact h.move hex hm nofun fun _ _ => hop
  · have huop := hm.parse.bus.op.trans hop
    have htrace := (hm.safe.trace h.link.traceOk (h.link.held hex)).unselect
    have hcal := h.moved hex hm
    generalize (recvByte s).2.setT _ = u at huop htrace hcal ⊢
    rw [decodePacket_eq]
    exact .of_busy (htrace.of_eq rfl rfl) (huop.trans_ne (by simp)) (hcal.of_eq rfl rfl rfl rfl rfl) nofun
      (fun he => by simp [Seq.exchanging, huop, unselect] at he) nofun

/-- Every event of the sequencer keeps the invariant (R26). -/
theorem seqStep_inv (h : Inv s) : Inv (seqStep s) := by
  have exchanging {q : Seq} (hseq : s.seq = q) (hq : q.exchanging s.op = true) : s.seq.exchanging s.op = true := hseq ▸ hq
  unfold seqStep
  split
  case h_1 hseq => exact h
  case h_2 k hseq => exact stepTx_inv k h (exchanging hseq rfl)
  case h_3 hseq =>
    split
    · exact stepPoll_inv h hseq ‹_›
    · exact stepWait_inv h (exchanging hseq (decide_eq_true ‹_›))
  case h_4 hseq => exact stepHdr_inv h (exchanging hseq rfl)
  case h_5 hseq => exact stepLen_inv h (exchanging hseq rfl)
  case h_6 hseq => exact stepStatus_inv h (exchanging hseq rfl)
  case h_7 hseq => exact stepOpcode_inv h (exchanging hseq rfl)
  case h_8 k hseq => exact stepPayload_inv k h (exchanging hseq rfl)
  case h_9 hseq => exact stepReply_inv _ h (exchanging hseq rfl)
  case h_10 e hseq => exact stepReply_inv _ h (exchanging hseq rfl)
  case h_11 k hseq => exact stepPkt_inv k h hseq

end

/-! ## What the chip offers -/

theorem respond_inv {bytes : List Byte} {s t : State} (h : Inv s) (hrun : respond bytes s = .next t) : Inv t := by
  have hoffer : Inv (offer bytes s) := h.of_env _ s.inputs
  unfold respond at hrun
  dsimp only at hrun
  split at hrun <;> cases hrun
  · rename_i hwait
    have hex : (offer bytes s).seq.exchanging (offer bytes s).op = true := by
      change s.seq.exchanging s.op = true
      rw [hwait.1]
      exact decide_eq_true hwait.2
    exact backToCaller_inv (hoffer.finished hex ((pollSig_moves _).trans (recvFrame_moves _ _ _)))
  · exact hoffer

theorem inactive_of_decodeEnabled {s : State} (h : s.decodeEnabled = true) : s.active = false := by
  simp only [State.decodeEnabled, Bool.and_eq_true, Bool.not_eq_true'] at h
  exact h.2

/-- DECODE and its rounds begin and end in an idle engine without an active calibration (R231). -/
theorem TouchOnly.inv {s t : State} (h : TouchOnly s t) (hs : Inv s) (hen : s.decodeEnabled = true) (htrace : TraceOk t) : Inv t := by
  have hidle := hs.idle (decodeEnabled_seq hen)
  refine .of_inactive_idle ?_ htrace ?_ ?_ <;> rw [h]
  · exact hidle
  · exact hs.cal.range
  · exact inactive_of_decodeEnabled hen

theorem execPacket_inv {bytes : List Byte} {s t : State} (h : Inv s) (hrun : execPacket bytes s = .next t) : Inv t := by
  have hoffer : Inv (offerBytes bytes s) := h.of_env _ s.inputs
  rw [execPacket_eq] at hrun
  cases hrun
  split
  · rename_i hen
    exact (packetRound_touchOnly _).inv hoffer hen hoffer.link.traceOk.packetRound
  · exact h.of_env _ s.inputs

theorem execDecode_inv {s t : State} (h : Inv s) (hrun : exec .decode s = .next t) : Inv t := by
  replace hrun : execDecode s = .next t := hrun
  unfold execDecode at hrun
  split at hrun <;> cases hrun
  · exact (decodeRun_touchOnly s).inv h ‹_› h.link.traceOk.decodeRun
  · exact h

/-! ## The operations of an idle engine -/

theorem inactive_of_mode {s : State} (h : Inv s) (hmode : s.mode ≠ .calibrating) : s.active = false := by
  by_contra hact
  have hact : s.active = true := by simpa using hact
  exact hmode (mode_of_active (h.cal.session hact) hact)

/-- A bus operation that answers a next state was not issued during a calibration (R301). -/
theorem mode_of_hostBus {s t : State} {run : Host.Outcome State Fault Refusal} (hidle : s.seq = .idle)
    (h : hostBus s run = .next t) : s.mode ≠ .calibrating := by
  intro hmode
  rw [hostBus_of_calibrating hidle hmode] at h
  cases h

theorem Inv.between {s : State} (h : Inv s) (hidle : s.seq = .idle) : Between True s :=
  ⟨hidle, h.cal.session, h.cal.held hidle, fun _ => .inr trivial⟩

/-- The index stays in its range, whatever an instruction does (R22). -/
theorem exec_range {s t : State} {i : Instr} (hidle : s.seq = .idle) (h : s.pointIndex.toNat ≤ 5) (hexec : exec i s = .next t) :
    t.pointIndex.toNat ≤ 5 := by
  obtain ⟨-, -, hpoint, -⟩ := eachRegisterHasItsWriters s t i hidle hexec
  obtain rfl := performed_of_exec hidle hexec
  by_cases hsame : (performed i s).pointIndex = s.pointIndex
  · exact hsame ▸ h
  rcases hpoint hsame with rfl | ⟨tmo, rfl⟩
  · cases hinit : s.initialized with
    | false =>
      rw [performed_calstart_of_run (calStart_of_uninitialized hinit)]
      exact h
    | true =>
      obtain ⟨b, u, hrun⟩ : ∃ b u, calStart s = (b, u) := ⟨_, _, rfl⟩
      have hindex := (calStart_laws hinit hrun).2
      rw [performed_calstart_of_run hrun, ret_pointIndex, hindex]
      cases b <;> decide
  · obtain ⟨o, u, hrun⟩ : ∃ o u, calWait tmo s = (o, u) := ⟨_, _, rfl⟩
    obtain ⟨hnone, hmore, hlast⟩ := calWait_laws hrun
    rw [performed_calwait_of_run hrun, ret_pointIndex]
    match o with
    | none => rw [(hnone rfl).1]; decide
    | some true =>
      obtain ⟨hlt, hindex, -⟩ := hmore rfl
      rw [hindex, BitVec.toNat_add]
      exact (Nat.mod_le _ _).trans (Nat.succ_le_succ (hlt.le.trans (by decide)))
    | some false => rw [(hlast rfl).2.1]; decide

/-- The trace's invariant after an operation of the host. -/
theorem performed_traceOk {s : State} {i : Instr} (h : TraceOk s) (hop : i.channel = some .host) : TraceOk (performed i s) := by
  cases i with
  | cmd opcode payload cap hold =>
    have hrun := h.runCmd ⟨opcode, payload, cap, hold⟩
    obtain ⟨r, u, hu⟩ : ∃ r u, runCmd ⟨opcode, payload, cap, hold⟩ s = (r, u) := ⟨_, _, rfl⟩
    rw [hu] at hrun
    rw [performed_cmd_of_run hu]
    exact hrun.ret _ _
  | waitresp tmo hold =>
    have hrun := h.waitResp tmo hold
    rw [performed]
    generalize waitResp tmo hold s = x at hrun ⊢
    exact hrun.ret _ _
  | init width height rotated =>
    obtain ⟨b, u, hu⟩ : ∃ b u, attempts initAttempt Config.maxAttempts 1 (initEntry width height rotated s) = (b, u) := ⟨_, _, rfl⟩
    have hentry : TraceOk (initEntry width height rotated s) := h.of_eq rfl rfl
    have hrun := busRel_traceOk.attempts (busRel_traceOk.initAttempt fun p s h => h.storeOffset p) Config.maxAttempts 1 _ hentry
    rw [hu] at hrun
    rw [performed_init_of_run (init_of_attempts hu)]
    exact (hrun.of_eq rfl rfl : TraceOk (u.setInitialized b)).ret _ _
  | read =>
    have hread : TraceOk (readTouch s).2 := by
      unfold readTouch
      split_ifs
      · exact h
      · exact h.of_eq rfl rfl
      · exact h
    rw [performed]
    generalize readTouch s = x at hread ⊢
    exact hread.ret _ _
  | calstart =>
    have hrun := busRel_traceOk.calStart (fun p s h => h.storeOffset p) (fun _ _ h => h.of_eq rfl rfl) s h
    rw [performed]
    generalize calStart s = x at hrun ⊢
    exact hrun.ret _ _
  | calpoint =>
    rw [performed]
    exact h.ret _ _
  | calwait tmo =>
    have hrun := busRel_traceOk.calWait (fun s h => h.calFail) (fun _ _ h => h.of_eq rfl rfl) tmo s h
    rw [performed]
    generalize calWait tmo s = x at hrun ⊢
    exact hrun.ret _ _
  | setreg reg value =>
    have hrun := busRel_traceOk.setReg reg value s h
    rw [performed]
    generalize setReg reg value s = x at hrun ⊢
    exact hrun.ret _ _
  | regdump =>
    have hrun := busRel_traceOk.regDump (fun _ _ h => h.of_eq rfl rfl) s h
    rw [performed]
    generalize regDump s = u at hrun ⊢
    exact hrun.retNone _
  | reserved0 | reservedA | reservedB | reservedC | reservedD | reservedE | reservedF => exact h
  | _ => simp [Instr.channel] at hop

theorem exec_host_inv {s t : State} {i : Instr} (h : Inv s) (hidle : s.seq = .idle) (hch : i.channel = some .host)
    (hexec : exec i s = .next t) : Inv t := by
  obtain ⟨hseq, hop⟩ := performed_idle hidle (.inl hch) hexec
  obtain ⟨-, hsession, hheld, -⟩ := (h.between hidle).step (.inl hch) hexec
  have hrange := exec_range hidle h.cal.range hexec
  have htrace : TraceOk t := performed_of_exec hidle hexec ▸ performed_traceOk h.link.traceOk hch
  exact .of_idle ⟨hseq, hop (h.idle hidle).2⟩ htrace hrange hsession hheld

/-- What a wire command's row makes of its command's reply. -/
theorem wireReturn_idle {i : Instr} {r : Reply} {u : State} (h : Idle u) : Idle (wireReturn i r u) := by
  unfold wireReturn
  split
  · exact ⟨(storeOffset_seq _ u).trans h.1, (storeOffset_op _ u).trans h.2⟩
  · exact ret_idle _ _ _
  · exact h

theorem TraceOk.wireReturn {u : State} (h : TraceOk u) (i : Instr) (r : Reply) : TraceOk (wireReturn i r u) := by
  unfold Machine.wireReturn
  split
  · exact h.storeOffset _
  · exact h.ret _ _
  · exact h

/-- The transmit half of a CMD, after which the engine waits (log 18). -/
theorem reqFrame_inv {s : State} (opcode : Byte) (payload : List Byte) (h : Inv s) (hact : s.active = false) :
    Inv (performed (.reqFrame opcode payload) s) := by
  have hsel : TraceOk (select (latchCmd opcode payload 0xFF false s)) := TraceOk.select (h.link.traceOk.of_eq rfl rfl)
  have hlink := sendBytes_link (requestFrame opcode payload) (select (latchCmd opcode payload 0xFF false s))
  have hsafe := sendBytes_safe (requestFrame opcode payload) (select (latchCmd opcode payload 0xFF false s))
  have hindex := hlink.parse.bus.pointIndex
  rw [performed]
  generalize sendBytes (select (latchCmd opcode payload 0xFF false s)) (requestFrame opcode payload) = u at hlink hsafe hindex ⊢
  have harm := arm_link s.cfg.tCmd (u.setOp .cmd)
  have hsent : TraceOk (u.setOp .cmd) := (hsafe.trace hsel rfl).of_eq rfl rfl
  have htrace : TraceOk (arm s.cfg.tCmd (u.setOp .cmd)) := hsent.quiet rfl (arm_trace _ _) harm.cs
  have hcs : (arm s.cfg.tCmd (u.setOp .cmd)).cs = true := harm.cs.trans hsafe.cs
  have hop : (arm s.cfg.tCmd (u.setOp .cmd)).op = .cmd := harm.parse.bus.op
  have hindex' : (arm s.cfg.tCmd (u.setOp .cmd)).pointIndex = s.pointIndex := harm.parse.bus.pointIndex.trans hindex
  exact .of_busy htrace (hop.trans_ne (by decide)) (.of_inactive (hindex' ▸ h.cal.range) ((active_of_pointIndex hindex').trans hact)
    (fun hw => absurd (hop.symm.trans hw) (by decide)) fun hs => absurd (hop.symm.trans hs) (by decide)) nofun (fun _ => hcs) nofun

theorem usesBus_of_wire {i : Instr} (h : i.channel = some .wire) : usesBus i = true := by
  cases i with
  | getVersion | enableTouch | disableTouch | calibrateMode | regStart | regRead | regWrite | eepromWrite | reqFrame => rfl
  | _ => simp [Instr.channel] at h

theorem exec_wire_inv {s t : State} {i : Instr} (h : Inv s) (hidle : s.seq = .idle) (hch : i.channel = some .wire)
    (hexec : exec i s = .next t) : Inv t := by
  have hact : s.active = false := by
    by_contra hact
    have hact : s.active = true := by simpa using hact
    have hquiet := not_usesBus_of_active hidle (h.cal.session hact) hact hexec
    exact absurd ((usesBus_of_wire hch).symm.trans hquiet) (by decide)
  have hrange := exec_range hidle h.cal.range hexec
  obtain ⟨-, -, hpoint, -⟩ := eachRegisterHasItsWriters s t i hidle hexec
  obtain rfl := performed_of_exec hidle hexec
  by_cases hreq : ∃ opcode payload, i = .reqFrame opcode payload
  · obtain ⟨opcode, payload, rfl⟩ := hreq
    exact reqFrame_inv opcode payload h hact
  · push Not at hreq
    have hindex : (performed i s).pointIndex = s.pointIndex := by
      by_contra hne
      rcases hpoint hne with rfl | ⟨tmo, rfl⟩ <;> cases hch
    obtain ⟨c, hc⟩ := exists_wireCommand s.cfg hch hreq
    have hbus := runCmd_bus c s
    have htrace := h.link.traceOk.runCmd c
    obtain ⟨r, u, hrun⟩ : ∃ r u, runCmd c s = (r, u) := ⟨_, _, rfl⟩
    rw [hrun] at hbus htrace
    have hidle' : Idle u := ⟨hbus.seq.trans hidle, hbus.op.trans (h.idle hidle).2⟩
    have hperf := performed_wire hc hrun
    exact .of_inactive_idle (hperf ▸ wireReturn_idle hidle') (hperf ▸ htrace.wireReturn i r) hrange
      ((active_of_pointIndex hindex).trans hact)

/-! ## The first event of an operation -/

theorem begin_decode_inv {s t : State} (h : Inv s) (hrun : begin .decode s = .next t) : Inv t := by
  unfold begin at hrun
  dsimp only at hrun
  split at hrun <;> cases hrun
  · have hlink := arm_link s.cfg.tDec s
    have htrace : TraceOk (arm s.cfg.tDec s) := h.link.traceOk.quiet rfl (arm_trace _ _) hlink.cs
    have hindex := hlink.parse.bus.pointIndex
    have hact := (active_of_pointIndex hindex).trans (inactive_of_decodeEnabled ‹_›)
    have hrange := hindex.symm ▸ h.cal.range
    unfold beginDecode
    generalize arm s.cfg.tDec s = u at htrace hact hrange ⊢
    exact .of_busy (s := u.setOp .decode) (htrace.of_eq rfl rfl) nofun (.of_inactive hrange hact nofun nofun) nofun nofun nofun
  · exact h

theorem beginCalstart_inv {s : State} (h : Inv s) (hidle : s.seq = .idle) : Inv (beginCalstart s) := by
  unfold beginCalstart
  split
  · have htrace : TraceOk ((startAttempt 1 (s.setOp .calstart)).setPointIndex idleIndex) := h.link.traceOk.of_eq rfl rfl
    exact startCmd_inv_of_inactive htrace nofun (Nat.le_refl 5) rfl nofun
      fun _ => ⟨‹_›, fun h3 => absurd (show 3 ≤ 0 from h3) (by decide)⟩
  · exact .of_idle (ret_idle _ _ _) (h.link.traceOk.ret _ _) h.cal.range h.cal.session (h.cal.held hidle)

theorem beginCalwait_inv {s : State} (tmo : Half) (h : Inv s) : Inv (beginCalwait tmo s) := by
  unfold beginCalwait
  split
  · rename_i hact
    have htrace : TraceOk (setStep 0 (s.setOp .calwait)) := h.link.traceOk.of_eq rfl rfl
    exact startWait_inv htrace nofun ⟨h.cal.range, h.cal.session, fun _ _ => ⟨hact, rfl⟩, fun _ hstep => absurd rfl hstep, nofun,
      fun hw => absurd rfl hw⟩
  · exact ret_inv_of_inactive h.link.traceOk.calFail (Nat.le_refl 5) rfl

theorem begin_inv {s t : State} {i : Instr} (h : Inv s) (hidle : s.seq = .idle) (hch : i.channel = some .host)
    (hrun : begin i s = .next t) : Inv t := by
  have htrace := h.link.traceOk
  have hrange := h.cal.range
  cases i with
  | cmd opcode payload cap hold =>
    have hact := inactive_of_mode h (mode_of_hostBus hidle hrun)
    replace hrun := run_eq_next_of_hostBus hidle hrun
    split at hrun <;> cases hrun
    exact startCmd_inv_of_other (s := s.setOp .cmd) (o := .cmd) rfl (by decide) (htrace.of_eq rfl rfl) hrange hact
  | waitresp tmo hold =>
    have hact := inactive_of_mode h (mode_of_hostBus hidle hrun)
    cases run_eq_next_of_hostBus hidle hrun
    exact startWait_inv (s := s.setOp .waitresp) (htrace.of_eq rfl rfl) nofun (.of_inactive hrange hact nofun nofun)
  | init width height rotated =>
    have hact := inactive_of_mode h (mode_of_hostBus hidle hrun)
    cases run_eq_next_of_hostBus hidle hrun
    exact startCmd_inv_of_other (s := startAttempt 1 ((initEntry width height rotated s).setOp .init)) (o := .init) rfl
      (by decide) (htrace.of_eq rfl rfl) hrange hact
  | setreg reg value =>
    have hact := inactive_of_mode h (mode_of_hostBus hidle hrun)
    cases run_eq_next_of_hostBus hidle hrun
    unfold beginSetreg
    split
    · exact startCmd_inv_of_other (s := setStep 0 (s.setOp .setreg)) (o := .setreg) rfl (by decide) (htrace.of_eq rfl rfl) hrange
        hact
    · exact ret_inv_of_inactive htrace hrange hact
  | regdump =>
    have hact := inactive_of_mode h (mode_of_hostBus hidle hrun)
    cases run_eq_next_of_hostBus hidle hrun
    unfold beginRegdump
    split
    · have hput : TraceOk (setStep 0 (((s.sinkPut (.offset s.offset)).setOp .regdump).setT
        { ((s.sinkPut (.offset s.offset)).setOp .regdump).t with todo := s.cfg.dumpRegs })) := htrace.of_eq rfl rfl
      exact startCmd_inv_of_other (o := .regdump) rfl (by decide) hput hrange hact
    · exact .of_inactive_idle (retNone_idle _ _) (htrace.retNone _) hrange hact
  | calstart =>
    cases run_eq_next_of_whenIdle hidle hrun
    exact beginCalstart_inv h hidle
  | calwait tmo =>
    cases run_eq_next_of_whenIdle hidle hrun
    exact beginCalwait_inv tmo h
  | read => exact exec_host_inv (i := .read) h hidle rfl hrun
  | calpoint => exact exec_host_inv (i := .calpoint) h hidle rfl hrun
  | reserved0 | reservedA | reservedB | reservedC | reservedD | reservedE | reservedF =>
    cases hrun
    exact h
  | _ => simp [Instr.channel] at hch

/-- Settles O53: the invariant goes through every kind of step. -/
theorem everyStepKeepsTheInvariant : Obligations.EveryStepKeepsTheInvariant := by
  intro s t h hstep
  have taken (rest : List Stimulus) : Inv (s.setInputs rest) := h.of_env s.env rest
  have offered (tail : List Byte) (rest : List Stimulus) : Inv (offerBytes tail (s.setInputs rest)) := h.of_env _ rest
  cases stepped_of_step hstep with
  | event => exact seqStep_inv h
  | operation i rest _ hidle hch hrun =>
    rcases hch with hch | hch
    · exact exec_host_inv (taken rest) hidle hch hrun
    · exact exec_wire_inv (taken rest) hidle hch hrun
  | response bytes tail rest _ hrun => exact respond_inv (offered tail rest) hrun
  | packet bytes tail rest _ hrun => exact execPacket_inv (offered tail rest) hrun
  | pending bytes rest => exact h.of_env _ rest
  | start i rest _ hidle hch hrun => exact begin_inv (taken rest) hidle hch hrun
  | trigger rest _ hrun => exact execDecode_inv (taken rest) hrun
  | startTrigger rest _ hrun => exact begin_decode_inv (taken rest) hrun
  | reset rest => exact (taken rest).engineReset

end Sys2Proof.Machine
end

section
/-! PROOFS. The sequencer's events make up the framing operations (10_state R26): what is sent, the wait, what is received, the
end. -/

namespace Sys2Proof.Machine

/-! ## The registers that belong to the sequencer -/

/-- The same state at another place of the sequencer, with other transient registers. -/
def State.over (s : State) (q : Seq) (o : OpName) (x : Transient) : State := { s with seq := q, op := o, t := x }

section
variable (q : Seq) (o : OpName) (x : Transient)

/-! The bus looks at none of these registers. -/

theorem chipByte_over (phase : Phase) (s : State) :
    chipByte phase (s.over q o x) = ((chipByte phase s).1, (chipByte phase s).2.over q o x) := by
  have hrx : (s.over q o x).env.rx = s.env.rx := rfl
  have hecho : (s.over q o x).env.echo = s.env.echo := rfl
  unfold chipByte
  cases phase
  · dsimp only
    rw [hecho]
    cases s.env.echo <;> rfl
  · dsimp only
    rw [hrx]
    cases s.env.rx <;> rfl

theorem recvByte_over (s : State) : recvByte (s.over q o x) = ((recvByte s).1, (recvByte s).2.over q o x) := by
  unfold recvByte xchgD xchg
  rw [chipByte_over]
  rfl

theorem sendByte_over (s : State) (b : Byte) : sendByte (s.over q o x) b = (sendByte s b).over q o x := by
  unfold sendByte xchgD xchg
  rw [chipByte_over]
  rfl

theorem sendBytes_over (s : State) (bytes : List Byte) : sendBytes (s.over q o x) bytes = (sendBytes s bytes).over q o x := by
  induction bytes generalizing s with
  | nil => rfl
  | cons b rest ih =>
    change sendBytes (sendByte (s.over q o x) b) rest = (sendBytes (sendByte s b) rest).over q o x
    rw [sendByte_over, ih]

theorem pollSig_over (s : State) : pollSig (s.over q o x) = ((pollSig s).1, (pollSig s).2.over q o x) := by
  have hsig : (s.over q o x).env.sig = s.env.sig := rfl
  unfold pollSig chipSig
  dsimp only
  rw [hsig]
  cases s.env.sig <;> rfl

theorem pollExpired_over (s : State) : pollExpired (s.over q o x) = ((pollExpired s).1, (pollExpired s).2.over q o x) := rfl

theorem arm_over (d : Half) (s : State) : arm d (s.over q o x) = (arm d s).over q o x := by
  have hcounts : (s.over q o x).env.counts = s.env.counts := rfl
  unfold arm loadTimer
  rw [hcounts]
  cases s.env.counts <;> rfl

theorem waitLoop_over (n : Nat) (s : State) : waitLoop n (s.over q o x) = ((waitLoop n s).1, (waitLoop n s).2.over q o x) := by
  induction n generalizing s with
  | zero =>
    simp only [waitLoop, pollSig_over]
    split <;> rfl
  | succ n ih =>
    simp only [waitLoop, pollSig_over]
    split
    · rfl
    · rw [pollExpired_over]
      exact ih _

theorem waitReady_over (tmo : Half) (s : State) :
    waitReady tmo (s.over q o x) = ((waitReady tmo s).1, (waitReady tmo s).2.over q o x) := by
  unfold waitReady
  rw [arm_over]
  exact waitLoop_over q o x _ _

theorem recvPayload_over (n : Nat) (s : State) :
    recvPayload n (s.over q o x) = ((recvPayload n s).1, (recvPayload n s).2.over q o x) := by
  induction n generalizing s with
  | zero => rfl
  | succ n ih => simp only [recvPayload, recvByte_over, ih]

end

/-- The same state with the sequencer elsewhere: `S.seq` and `S.k`. -/
def State.put (s : State) (q : Seq) (k : Byte) : State := s.over q s.op { s.t with k := k }

theorem LinkOnly.over_eq_put {s t : State} (h : LinkOnly s t) (q : Seq) (k : Byte) :
    t.over q s.op { s.t with k := k } = t.put q k := by
  rw [State.put, h.t, h.parse.bus.op]

section
variable (q : Seq) (k : Byte) (s : State)

theorem recvByte_put : recvByte (s.put q k) = ((recvByte s).1, (recvByte s).2.put q k) := by
  rw [← (recvByte_link s).over_eq_put]
  exact recvByte_over q s.op _ s

theorem pollSig_put : pollSig (s.put q k) = ((pollSig s).1, (pollSig s).2.put q k) := by
  rw [← (pollSig_link s).over_eq_put]
  exact pollSig_over q s.op _ s

theorem sendByte_put (b : Byte) : sendByte (s.put q k) b = (sendByte s b).put q k := by
  rw [← (sendByte_link s b).over_eq_put]
  exact sendByte_over q s.op _ s b

theorem arm_put (d : Half) : arm d (s.put q k) = (arm d s).put q k := by
  rw [← (arm_link d s).over_eq_put]
  exact arm_over q s.op _ d s

theorem finish_put (hold : Bool) (r : Reply) : finish hold (r, s.put q k) = (r, (finish hold (r, s)).2.put q k) := by
  unfold finish
  cases r <;> cases hold <;> rfl

/-- The sequencer moves on from wherever it is. -/
theorem put_goTo (q' : Seq) : ∃ k', (s.put q k).goTo q' = s.put q' k' := ⟨_, rfl⟩

end

/-! ## Runs of the sequencer -/

/-- Some number of events of the sequencer leads from `a` to `b`. -/
def Leads (a b : State) : Prop := ∃ n, seqRun n a = b

theorem seqRun_add (m n : Nat) (s : State) : seqRun (m + n) s = seqRun n (seqRun m s) := by
  induction m generalizing s with
  | zero => rw [Nat.zero_add]; rfl
  | succ m ih => rw [Nat.succ_add]; exact ih (seqStep s)

theorem Leads.refl (s : State) : Leads s s := ⟨0, rfl⟩

theorem Leads.trans {a b c : State} (h1 : Leads a b) (h2 : Leads b c) : Leads a c := by
  obtain ⟨m, rfl⟩ := h1
  obtain ⟨n, rfl⟩ := h2
  exact ⟨m + n, seqRun_add m n a⟩

/-- One event, and then the others. -/
theorem Leads.step {a b c : State} (h : seqStep a = b) (hb : Leads b c) : Leads a c := Leads.trans ⟨1, h⟩ hb

/-- The sequencer ends the framing operation with this reply and state, and goes back to the caller. -/
def Ends (s : State) (p : Reply × State) : Prop :=
  ∃ q k, Leads s (backToCaller p.1 ((finish p.2.t.hold p).2.put q k))

theorem Ends.step {a b : State} {p : Reply × State} (h : seqStep a = b) (hb : Ends b p) : Ends a p := by
  obtain ⟨q, k, hl⟩ := hb
  exact ⟨q, k, .step h hl⟩

theorem Leads.ends {a b : State} {p : Reply × State} (h : Leads a b) (hb : Ends b p) : Ends a p := by
  obtain ⟨q, k, hl⟩ := hb
  exact ⟨q, k, h.trans hl⟩

theorem stepReply_put (r : Reply) (s : State) (q : Seq) (k : Byte) :
    stepReply r (s.put q k) = backToCaller r ((finish s.t.hold (r, s)).2.put q k) := by
  have h := finish_put q k s s.t.hold r
  change (let f := finish s.t.hold (r, s.put q k); backToCaller f.1 f.2) = _
  rw [h]

theorem ends_done (s : State) (k : Byte) : Ends (s.put .done k) (.ok s.t.resp, s) :=
  ⟨.done, k, 1, stepReply_put _ s _ k⟩

theorem ends_fail (s : State) (e : ProtocolError) (k : Byte) : Ends (s.put (.fail e) k) (.err e, s) :=
  ⟨.fail e, k, 1, stepReply_put _ s _ k⟩

/-! ## What is received -/

/-- The part of a response's parse after its status byte. -/
def parseOpcode (expected cap len : Byte) (s : State) : Reply × State :=
  let o := recvByte s
  if o.1 ≠ expected then (.err .invalidResponseOpcode, o.2) else
  if cap.toNat < len.toNat - 2 then (.err .responseTooLarge, o.2) else
  let p := recvPayload (len.toNat - 2) o.2
  (.ok p.1, p.2.setT { p.2.t with resp := p.1 })

/-- The part after the length byte. -/
def parseStatus (expected cap len : Byte) (s : State) : Reply × State :=
  let st := recvByte s
  if st.1 ≠ Config.statusOk then (.err (.chipStatus st.1), st.2) else parseOpcode expected cap len st.2

/-- The part after the header byte. -/
def parseLen (expected cap : Byte) (s : State) : Reply × State :=
  let l := recvByte s
  let s2 := l.2.setT { l.2.t with len := l.1 }
  if l.1.toNat < Config.minRespLen then (.err .invalidLength, s2) else parseStatus expected cap l.1 s2

theorem recvFrame_eq (expected cap : Byte) (s : State) : recvFrame expected cap s =
    if (recvByte s).1 ≠ Config.hdr then (.err .noHeader, (recvByte s).2) else parseLen expected cap (recvByte s).2 := rfl

/-- The response payload received so far (R33). -/
def State.setResp (s : State) (bytes : List Byte) : State := s.setT { s.t with resp := bytes }

theorem LinkOnly.over_eq_setT {s t : State} (h : LinkOnly s t) (x : Transient) : t.over s.seq s.op x = t.setT x := by
  rw [← h.parse.bus.seq, ← h.parse.bus.op]
  rfl

theorem recvByte_setT (s : State) (x : Transient) : recvByte (s.setT x) = ((recvByte s).1, (recvByte s).2.setT x) := by
  rw [← (recvByte_link s).over_eq_setT]
  exact recvByte_over s.seq s.op x s

theorem recvPayload_setT (n : Nat) (s : State) (x : Transient) :
    recvPayload n (s.setT x) = ((recvPayload n s).1, (recvPayload n s).2.setT x) := by
  rw [← (recvPayload_link n s).over_eq_setT]
  exact recvPayload_over s.seq s.op x n s

theorem recvByte_setResp (s : State) (bytes : List Byte) :
    recvByte (s.setResp bytes) = ((recvByte s).1, (recvByte s).2.setResp bytes) := by
  rw [State.setResp, State.setResp, recvByte_setT, (recvByte_link s).t]

/-- The payload's bytes, one at a time. -/
theorem ends_rxPayload (n j : Nat) (s : State) (k : Byte) (bytes : List Byte) (hlen : s.t.len.toNat - 2 = j + (n + 1)) :
    Ends ((s.setResp bytes).put (.rxPayload j) k)
      (.ok (bytes ++ (recvPayload (n + 1) s).1), (recvPayload (n + 1) s).2.setResp (bytes ++ (recvPayload (n + 1) s).1)) := by
  have ht := (recvByte_link s).t
  have hstep : ∃ k', seqStep ((s.setResp bytes).put (.rxPayload j) k) = ((recvByte s).2.setResp (bytes ++ [(recvByte s).1])).put
      (if j + 1 < (recvByte s).2.t.len.toNat - 2 then .rxPayload (j + 1) else .done) k' := by
    change ∃ k', stepPayload j ((s.setResp bytes).put (.rxPayload j) k) = _
    rw [stepPayload, recvByte_put, recvByte_setResp]
    generalize recvByte s = b
    exact ⟨_, rfl⟩
  obtain ⟨k', hstep⟩ := hstep
  refine .step hstep ?_
  rw [ht, hlen]
  cases n with
  | zero =>
    rw [if_neg (by omega)]
    exact ends_done ((recvByte s).2.setResp (bytes ++ [(recvByte s).1])) k'
  | succ n =>
    rw [if_pos (by omega)]
    have h := ends_rxPayload n (j + 1) (recvByte s).2 k' (bytes ++ [(recvByte s).1]) (by rw [ht, hlen]; omega)
    rwa [List.append_assoc] at h

theorem ends_rxOpcode (s : State) (k : Byte) : Ends (s.put .rxOpcode k) (parseOpcode s.t.expOp s.t.cap s.t.len s) := by
  have ht := (recvByte_link s).t
  obtain ⟨k', hstep⟩ : ∃ k', seqStep (s.put .rxOpcode k) = ((recvByte s).2.setResp []).put
      (if (recvByte s).1 ≠ (recvByte s).2.t.expOp then .fail .invalidResponseOpcode
        else if (recvByte s).2.t.cap.toNat < (recvByte s).2.t.len.toNat - 2 then .fail .responseTooLarge
        else if 0 < (recvByte s).2.t.len.toNat - 2 then .rxPayload 0 else .done) k' := by
    change ∃ k', stepOpcode (s.put .rxOpcode k) = _
    rw [stepOpcode, recvByte_put]
    generalize recvByte s = b
    exact ⟨_, rfl⟩
  refine .step hstep ?_
  rw [ht]
  unfold parseOpcode
  dsimp only
  split_ifs with hop hcap hpos
  · exact ends_fail ((recvByte s).2.setResp []) _ k'
  · exact ends_fail ((recvByte s).2.setResp []) _ k'
  · obtain ⟨n, hn⟩ : ∃ n, s.t.len.toNat - 2 = n + 1 := ⟨s.t.len.toNat - 2 - 1, by omega⟩
    have h := ends_rxPayload n 0 (recvByte s).2 k' [] (by rw [ht, hn]; omega)
    rw [hn]
    exact h
  · rw [Nat.eq_zero_of_not_pos hpos]
    exact ends_done ((recvByte s).2.setResp []) k'

theorem ends_rxStatus (s : State) (k : Byte) : Ends (s.put .rxStatus k) (parseStatus s.t.expOp s.t.cap s.t.len s) := by
  have ht := (recvByte_link s).t
  have hstep : ∃ k', seqStep (s.put .rxStatus k) =
      (recvByte s).2.put (if (recvByte s).1 = Config.statusOk then .rxOpcode else .fail (.chipStatus (recvByte s).1)) k' := by
    change ∃ k', stepStatus (s.put .rxStatus k) = _
    rw [stepStatus, recvByte_put]
    generalize recvByte s = b
    exact ⟨_, rfl⟩
  obtain ⟨k', hstep⟩ := hstep
  refine .step hstep ?_
  unfold parseStatus
  dsimp only
  by_cases hok : (recvByte s).1 = Config.statusOk
  · rw [if_pos hok, if_neg (not_not.2 hok), ← ht]
    exact ends_rxOpcode _ _
  · rw [if_neg hok, if_pos hok]
    exact ends_fail _ _ _

theorem ends_rxLen (s : State) (k : Byte) : Ends (s.put .rxLen k) (parseLen s.t.expOp s.t.cap s) := by
  have ht := (recvByte_link s).t
  obtain ⟨k', hstep⟩ : ∃ k', seqStep (s.put .rxLen k) = ((recvByte s).2.setT { (recvByte s).2.t with len := (recvByte s).1 }).put
      (if (recvByte s).1.toNat < Config.minRespLen then .fail .invalidLength else .rxStatus) k' := by
    change ∃ k', stepLen (s.put .rxLen k) = _
    rw [stepLen, recvByte_put]
    generalize recvByte s = b
    exact ⟨_, rfl⟩
  refine .step hstep ?_
  unfold parseLen
  dsimp only
  split
  · exact ends_fail _ _ _
  · rw [ht]
    exact ends_rxStatus ((recvByte s).2.setT { s.t with len := (recvByte s).1 }) k'

/-- A response is parsed byte by byte as it is in one step (R144). -/
theorem ends_rxHdr (s : State) (k : Byte) : Ends (s.put .rxHdr k) (recvFrame s.t.expOp s.t.cap s) := by
  have ht := (recvByte_link s).t
  obtain ⟨k', hstep⟩ : ∃ k', seqStep (s.put .rxHdr k) =
      (recvByte s).2.put (if (recvByte s).1 = Config.hdr then .rxLen else .fail .noHeader) k' := by
    change ∃ k', stepHdr (s.put .rxHdr k) = _
    rw [stepHdr, recvByte_put]
    generalize recvByte s = b
    exact ⟨_, rfl⟩
  refine .step hstep ?_
  rw [recvFrame_eq]
  by_cases hhdr : (recvByte s).1 = Config.hdr
  · rw [if_pos hhdr, if_neg (not_not.2 hhdr), ← ht]
    exact ends_rxLen _ _
  · rw [if_neg hhdr, if_pos hhdr]
    exact ends_fail _ _ _

/-! ## The wait -/

theorem pollSig_timer (s : State) : (pollSig s).2.env.timer = s.env.timer := by
  unfold pollSig chipSig
  dsimp only
  cases s.env.sig <;> rfl

theorem seqStep_wait {s : State} (hop : s.op ≠ .decode) (k : Byte) : seqStep (s.put .wait k) = stepWait (s.put .wait k) := if_neg hop

/-- The line active ends the wait. -/
theorem stepWait_of_active {s : State} (h : (pollSig s).1 = true) (k : Byte) :
    ∃ k', stepWait (s.put .wait k) = (pollSig s).2.put .rxHdr k' := by
  rw [stepWait, pollSig_put]
  simp only [h, if_true]
  exact ⟨_, rfl⟩

/-- Otherwise the timer decides. -/
theorem stepWait_of_inactive {s : State} (h : (pollSig s).1 = false) (k : Byte) : ∃ k', stepWait (s.put .wait k) =
    (pollExpired (pollSig s).2).2.put (if s.env.timer == 0 then .fail .timeout else .wait) k' := by
  rw [stepWait, pollSig_put, ← pollSig_timer s]
  simp only [h]
  exact ⟨_, rfl⟩

/-- The polling loop, one round an event (R143). -/
theorem leads_wait (n : Nat) {s : State} (hop : s.op ≠ .decode) (hn : s.env.timer = n) (k : Byte) :
    ∃ k', Leads (s.put .wait k) ((waitLoop n s).2.put (if (waitLoop n s).1 then .rxHdr else .fail .timeout) k') := by
  have hstep := seqStep_wait hop k
  induction n generalizing s k with
  | zero =>
    cases hpoll : (pollSig s).1 with
    | true =>
      obtain ⟨k', hwait⟩ := stepWait_of_active hpoll k
      simp only [waitLoop, hpoll, if_true]
      exact ⟨k', .step (hstep.trans hwait) (.refl _)⟩
    | false =>
      obtain ⟨k', hwait⟩ := stepWait_of_inactive hpoll k
      rw [hn] at hwait
      simp only [waitLoop, hpoll, Bool.false_eq_true, if_false]
      exact ⟨k', .step (hstep.trans hwait) (.refl _)⟩
  | succ n ih =>
    cases hpoll : (pollSig s).1 with
    | true =>
      obtain ⟨k', hwait⟩ := stepWait_of_active hpoll k
      simp only [waitLoop, hpoll, if_true]
      exact ⟨k', .step (hstep.trans hwait) (.refl _)⟩
    | false =>
      obtain ⟨k', hwait⟩ := stepWait_of_inactive hpoll k
      rw [hn] at hwait
      have hop' : (pollExpired (pollSig s).2).2.op ≠ .decode :=
        ((pollSig_link s).trans (pollExpired_link _)).parse.bus.op.trans_ne hop
      have htimer : (pollExpired (pollSig s).2).2.env.timer = n := by
        change (pollSig s).2.env.timer - 1 = n
        rw [pollSig_timer, hn, Nat.add_sub_cancel]
      obtain ⟨k2, hlater⟩ := ih hop' htimer k' (seqStep_wait hop' k')
      simp only [waitLoop, hpoll, Bool.false_eq_true, if_false]
      exact ⟨k2, .step (hstep.trans hwait) hlater⟩

/-- From the moment the timer is armed: `Receive` (R144). -/
theorem ends_wait {tmo : Half} {s : State} (hop : s.op ≠ .decode) (k : Byte) :
    Ends ((arm tmo s).put .wait k) (receive s.t.expOp s.t.cap tmo s) := by
  have hlink := arm_link tmo s
  obtain ⟨k', hwait⟩ := leads_wait _ (hlink.parse.bus.op.trans_ne hop) rfl k
  have ht : (waitReady tmo s).2.t = s.t := (waitReady_link tmo s).t
  refine hwait.ends ?_
  change Ends ((waitReady tmo s).2.put (if (waitReady tmo s).1 then _ else _) k') _
  unfold receive
  dsimp only
  split
  · rw [← ht]
    exact ends_rxHdr _ _
  · exact ends_fail _ _ _

/-! ## What is sent -/

theorem seqStep_tx (s : State) (j : Nat) (k : Byte) : seqStep (s.put (.tx j) k) = stepTx j (s.put (.tx j) k) := rfl

/-- A byte that is not the last one. -/
theorem seqStep_tx_more {s : State} {j : Nat} {b : Byte} (hb : s.t.req[j]? = some b) (hj : j + 1 < s.t.req.length) (k : Byte) :
    ∃ k', seqStep (s.put (.tx j) k) = (sendByte s b).put (.tx (j + 1)) k' := by
  have hb' : (s.put (.tx j) k).t.req[j]? = some b := hb
  have hj' : j + 1 < (s.put (.tx j) k).t.req.length := hj
  rw [seqStep_tx, stepTx, hb']
  dsimp only
  rw [sendByte_put, if_pos hj']
  exact ⟨_, rfl⟩

/-- The last byte, and the timer. -/
theorem seqStep_tx_last {s : State} {j : Nat} {b : Byte} (hb : s.t.req[j]? = some b) (hj : ¬ j + 1 < s.t.req.length) (k : Byte) :
    ∃ k', seqStep (s.put (.tx j) k) = (arm s.t.tmo (sendByte s b)).put .wait k' := by
  have hb' : (s.put (.tx j) k).t.req[j]? = some b := hb
  have hj' : ¬ j + 1 < (s.put (.tx j) k).t.req.length := hj
  have ht := congrArg Transient.tmo (sendByte_link s b).t
  have htmo : ((sendByte s b).put (.tx j) k).t.tmo = s.t.tmo := ht
  rw [seqStep_tx, stepTx, hb']
  dsimp only
  rw [sendByte_put, if_neg hj', htmo, arm_put]
  exact ⟨_, rfl⟩

/-- No byte is left, only the timer. -/
theorem seqStep_tx_none {s : State} {j : Nat} (hb : s.t.req[j]? = none) (k : Byte) :
    ∃ k', seqStep (s.put (.tx j) k) = (arm s.t.tmo s).put .wait k' := by
  have hb' : (s.put (.tx j) k).t.req[j]? = none := hb
  rw [seqStep_tx, stepTx, hb']
  dsimp only
  rw [arm_put]
  exact ⟨_, rfl⟩

/-- The request's bytes from the next one on, and the timer (R142). -/
theorem leads_tx (bytes : List Byte) {j : Nat} {s : State} (hreq : s.t.req.drop j = bytes) (k : Byte) :
    ∃ k', Leads (s.put (.tx j) k) ((arm s.t.tmo (sendBytes s bytes)).put .wait k') := by
  induction bytes generalizing s j k with
  | nil =>
    obtain ⟨k', hstep⟩ := seqStep_tx_none (List.getElem?_eq_none (List.drop_eq_nil_iff.1 hreq)) k
    exact ⟨k', .step hstep (.refl _)⟩
  | cons b rest ih =>
    have hb : s.t.req[j]? = some b := by rw [← List.head?_drop, hreq]; rfl
    have hrest : s.t.req.drop (j + 1) = rest := by rw [← List.tail_drop, hreq]; rfl
    have ht := (sendByte_link s b).t
    by_cases hj : j + 1 < s.t.req.length
    · obtain ⟨k1, hstep⟩ := seqStep_tx_more hb hj k
      obtain ⟨k2, hlater⟩ := ih (j := j + 1) (s := sendByte s b) (by rw [ht, hrest]) k1
      rw [ht] at hlater
      exact ⟨k2, .step hstep hlater⟩
    · obtain ⟨k', hstep⟩ := seqStep_tx_last hb hj k
      obtain rfl : rest = [] := hrest ▸ List.drop_eq_nil_of_le (Nat.le_of_not_lt hj)
      exact ⟨k', .step hstep (.refl _)⟩

/-! ## Whole framing operations -/

theorem receive_hold (expected cap : Byte) (tmo : Half) (s : State) : (receive expected cap tmo s).2.t.hold = s.t.hold := by
  have hwait := congrArg Transient.hold (waitReady_link tmo s).t
  unfold receive
  dsimp only
  split
  · exact (recvFrame_moves _ _ _).hold.trans hwait
  · exact hwait

/-- The end of a framing operation with what `Finish` makes of it. -/
theorem Ends.leads {s : State} {p : Reply × State} {hold : Bool} (h : Ends s p) (hhold : p.2.t.hold = hold) :
    ∃ q k, Leads s (backToCaller p.1 ((finish hold p).2.put q k)) := by
  subst hhold
  exact h

/-- A command, from its acceptance to its caller (R141). -/
theorem startCmd_leads (c : Command) {s : State} (hop : s.op ≠ .decode) :
    ∃ q k, Leads (startCmd c s) (backToCaller (runCmd c s).1 ((runCmd c s).2.put q k)) := by
  have hlink := sendBytes_link (requestFrame c.opcode c.payload) (select (latchCmd c.opcode c.payload c.cap c.hold s))
  obtain ⟨k, hsent⟩ := leads_tx (requestFrame c.opcode c.payload) (j := 0)
    (s := select (latchCmd c.opcode c.payload c.cap c.hold s)) rfl 0
  have hwait := ends_wait (tmo := s.cfg.tCmd) (s := sentCmd c s) (hlink.parse.bus.op.trans_ne hop) k
  have ht : (sentCmd c s).t = (latchCmd c.opcode c.payload c.cap c.hold s).t := hlink.t
  have hhold := (receive_hold c.opcode c.cap s.cfg.tCmd (sentCmd c s)).trans (congrArg Transient.hold ht)
  rw [ht] at hwait
  exact (hsent.ends hwait).leads hhold

/-- A WAITRESP likewise (R150). -/
theorem startWait_leads (tmo : Half) (hold : Bool) {s : State} (hop : s.op ≠ .decode) :
    ∃ q k, Leads (startWait tmo hold s) (backToCaller (waitResp tmo hold s).1 ((waitResp tmo hold s).2.put q k)) := by
  have hwait := ends_wait (tmo := tmo) (s := select (latchWait tmo hold s)) hop 0
  exact hwait.leads (receive_hold s.cfg.opCalibrateMode 0 tmo (select (latchWait tmo hold s)))

end Sys2Proof.Machine
end

section
/-! PROOFS. The composite operations event by event follow the whole operations (10_state R25, R26). -/

namespace Sys2Proof.Machine

/-! ## Framing operations do not look at the sequencer's registers -/

/-- The progress of a composite operation is the same (R33 `S.step`, `S.attempt`, `S.retried`; log 26). -/
structure SameProgress (x y : Transient) : Prop where
  step : y.step = x.step
  attempt : y.attempt = x.attempt
  retried : y.retried = x.retried
  todo : y.todo = x.todo

theorem SameProgress.trans {x y z : Transient} (h1 : SameProgress x y) (h2 : SameProgress y z) : SameProgress x z :=
  ⟨h2.1.trans h1.1, h2.2.trans h1.2, h2.3.trans h1.3, h2.4.trans h1.4⟩

/-- So are the operands that the end of a framing operation and its caller read. -/
structure SameOperands (x y : Transient) : Prop extends SameProgress x y where
  hold : y.hold = x.hold
  tmo : y.tmo = x.tmo

section
variable (q : Seq) (o : OpName) (x : Transient)

theorem recvFrame_over (expected cap : Byte) (s : State) : ∃ y, SameOperands x y ∧
    recvFrame expected cap (s.over q o x) = ((recvFrame expected cap s).1, (recvFrame expected cap s).2.over q o y) := by
  have hover (u : State) (z : Transient) : (u.over q o x).setT z = u.over q o z := rfl
  unfold recvFrame
  simp only [recvByte_over, hover, recvPayload_over, recvByte_setT, recvPayload_setT]
  split_ifs
  all_goals
    refine ⟨_, ?_, rfl⟩
    exact ⟨⟨rfl, rfl, rfl, rfl⟩, rfl, rfl⟩

theorem receive_over (expected cap : Byte) (tmo : Half) (s : State) : ∃ y, SameOperands x y ∧
    receive expected cap tmo (s.over q o x) = ((receive expected cap tmo s).1, (receive expected cap tmo s).2.over q o y) := by
  unfold receive
  simp only [waitReady_over]
  split
  · exact recvFrame_over q o x expected cap _
  · exact ⟨x, ⟨⟨rfl, rfl, rfl, rfl⟩, rfl, rfl⟩, rfl⟩

theorem finish_over (hold : Bool) (r : Reply) (s : State) : ∃ y, SameOperands x y ∧
    finish hold (r, s.over q o x) = (r, (finish hold (r, s)).2.over q o y) := by
  unfold finish
  cases r <;> cases hold
  all_goals
    refine ⟨_, ?_, rfl⟩
    exact ⟨⟨rfl, rfl, rfl, rfl⟩, rfl, rfl⟩

theorem sentCmd_over (c : Command) (s : State) : ∃ y, SameProgress x y ∧ sentCmd c (s.over q o x) = (sentCmd c s).over q o y := by
  have h := sendBytes_over q o { x with
    req := requestFrame c.opcode c.payload, expOp := c.opcode, cap := c.cap, hold := c.hold, tmo := s.cfg.tCmd, k := 0 }
    (select (latchCmd c.opcode c.payload c.cap c.hold s)) (requestFrame c.opcode c.payload)
  refine ⟨_, ?_, h⟩
  exact ⟨rfl, rfl, rfl, rfl⟩

theorem runCmd_over (c : Command) (s : State) : ∃ y, SameProgress x y ∧
    runCmd c (s.over q o x) = ((runCmd c s).1, (runCmd c s).2.over q o y) := by
  obtain ⟨y1, h1, hsent⟩ := sentCmd_over q o x c s
  obtain ⟨y2, h2, hrecv⟩ := receive_over q o y1 c.opcode c.cap s.cfg.tCmd (sentCmd c s)
  have hrun : runCmd c (s.over q o x) = finish c.hold (receive c.opcode c.cap s.cfg.tCmd (sentCmd c (s.over q o x))) := rfl
  rw [hrun, hsent, hrecv, runCmd_eq]
  generalize receive c.opcode c.cap s.cfg.tCmd (sentCmd c s) = p
  obtain ⟨y3, h3, hfin⟩ := finish_over q o y2 c.hold p.1 p.2
  exact ⟨y3, h1.trans (h2.toSameProgress.trans h3.toSameProgress), hfin⟩

theorem waitResp_over (tmo : Half) (hold : Bool) (s : State) : ∃ y, SameProgress x y ∧ y.tmo = tmo ∧
    waitResp tmo hold (s.over q o x) = ((waitResp tmo hold s).1, (waitResp tmo hold s).2.over q o y) := by
  have hsent : select (latchWait tmo hold (s.over q o x)) = (select (latchWait tmo hold s)).over q o { x with
    req := [], expOp := s.cfg.opCalibrateMode, cap := 0, hold := hold, tmo := tmo, k := 0 } := rfl
  obtain ⟨y2, h2, hrecv⟩ := receive_over q o { x with
    req := [], expOp := s.cfg.opCalibrateMode, cap := 0, hold := hold, tmo := tmo, k := 0 } s.cfg.opCalibrateMode 0 tmo
    (select (latchWait tmo hold s))
  have hrun : waitResp tmo hold (s.over q o x) =
    finish hold (receive s.cfg.opCalibrateMode 0 tmo (select (latchWait tmo hold (s.over q o x)))) := rfl
  rw [hrun, hsent, hrecv, waitResp]
  generalize receive s.cfg.opCalibrateMode 0 tmo (select (latchWait tmo hold s)) = p
  obtain ⟨y3, h3, hfin⟩ := finish_over q o y2 hold p.1 p.2
  refine ⟨y3, ?_, h3.tmo.trans h2.tmo, hfin⟩
  exact SameProgress.trans ⟨h2.step, h2.attempt, h2.retried, h2.todo⟩ h3.toSameProgress

end

/-! ## Following a whole operation -/

/-- `f` is `u` but for the sequencer's registers: `S.op` is `o`, the progress is that of `p`. -/
def Follows (o : OpName) (p : Transient) (f u : State) : Prop := ∃ q x, f = u.over q o x ∧ SameProgress p x

section
variable {o : OpName} {p : Transient} {f u : State}

/-- A command event by event comes back to its caller with the whole command's reply. -/
theorem Follows.startCmd (h : Follows o p f u) (ho : o ≠ .decode) (c : Command) :
    ∃ f', Follows o p f' (runCmd c u).2 ∧ Leads (startCmd c f) (backToCaller (runCmd c u).1 f') := by
  obtain ⟨q, x, rfl, hp⟩ := h
  obtain ⟨q', k, hlead⟩ := startCmd_leads c (s := u.over q o x) ho
  obtain ⟨y, hy, hrun⟩ := runCmd_over q o x c u
  rw [hrun] at hlead
  exact ⟨_, ⟨q', { y with k := k }, rfl, hp.trans ⟨hy.1, hy.2, hy.3, hy.4⟩⟩, hlead⟩

/-- A wait likewise; its timeout is still latched at the end. -/
theorem Follows.startWait (h : Follows o p f u) (ho : o ≠ .decode) (tmo : Half) (hold : Bool) :
    ∃ f', Follows o p f' (waitResp tmo hold u).2 ∧ f'.t.tmo = tmo ∧
      Leads (startWait tmo hold f) (backToCaller (waitResp tmo hold u).1 f') := by
  obtain ⟨q, x, rfl, hp⟩ := h
  obtain ⟨q', k, hlead⟩ := startWait_leads tmo hold (s := u.over q o x) ho
  obtain ⟨y, hy, htmo, hrun⟩ := waitResp_over q o x tmo hold u
  rw [hrun] at hlead
  exact ⟨_, ⟨q', { y with k := k }, rfl, hp.trans ⟨hy.1, hy.2, hy.3, hy.4⟩⟩, htmo, hlead⟩

end

end Sys2Proof.Machine
end

section
/-! PROOFS. Each operation of the host, event by event, ends as the whole operation does (10_state R25, R26). -/

namespace Sys2Proof.Machine

/-! ## What a following state shows -/

section
variable {o : OpName} {p : Transient} {f u : State}

theorem Follows.op (h : Follows o p f u) : f.op = o := by
  obtain ⟨q, x, rfl, -⟩ := h
  rfl

theorem Follows.cfg (h : Follows o p f u) : f.cfg = u.cfg := by
  obtain ⟨q, x, rfl, -⟩ := h
  rfl

theorem Follows.offset (h : Follows o p f u) : f.offset = u.offset := by
  obtain ⟨q, x, rfl, -⟩ := h
  rfl

theorem Follows.pointIndex (h : Follows o p f u) : f.pointIndex = u.pointIndex := by
  obtain ⟨q, x, rfl, -⟩ := h
  rfl

theorem Follows.progress (h : Follows o p f u) : SameProgress p f.t := by
  obtain ⟨q, x, rfl, hp⟩ := h
  exact hp

theorem Follows.setOp (o : OpName) (s : State) : Follows o s.t (s.setOp o) s := ⟨s.seq, s.t, rfl, ⟨rfl, rfl, rfl, rfl⟩⟩

theorem Follows.setT (h : Follows o p f u) (x : Transient) : Follows o x (f.setT x) u := by
  obtain ⟨q, y, rfl, -⟩ := h
  exact ⟨q, x, rfl, ⟨rfl, rfl, rfl, rfl⟩⟩

theorem Follows.setStep (h : Follows o p f u) (n : BitVec 3) : Follows o { p with step := n } (setStep n f) u := by
  obtain ⟨q, x, rfl, hp⟩ := h
  exact ⟨q, { x with step := n }, rfl, ⟨rfl, hp.2, hp.3, hp.4⟩⟩

theorem Follows.startAttempt (h : Follows o p f u) (a : BitVec 2) :
    Follows o { Transient.reset with attempt := a } (startAttempt a f) (startAttempt a u) := by
  obtain ⟨q, x, rfl, -⟩ := h
  exact ⟨q, { Transient.reset with attempt := a }, rfl, ⟨rfl, rfl, rfl, rfl⟩⟩

theorem Follows.setPointIndex (h : Follows o p f u) (i : BitVec 3) : Follows o p (f.setPointIndex i) (u.setPointIndex i) := by
  obtain ⟨q, x, rfl, hp⟩ := h
  exact ⟨q, x, rfl, hp⟩

theorem Follows.setInitialized (h : Follows o p f u) (b : Bool) : Follows o p (f.setInitialized b) (u.setInitialized b) := by
  obtain ⟨q, x, rfl, hp⟩ := h
  exact ⟨q, x, rfl, hp⟩

theorem Follows.sinkPut (h : Follows o p f u) (v : SinkItem) : Follows o p (f.sinkPut v) (u.sinkPut v) := by
  obtain ⟨q, x, rfl, hp⟩ := h
  exact ⟨q, x, rfl, hp⟩

theorem Follows.calFail (h : Follows o p f u) : Follows o p (calFail f) (calFail u) := by
  obtain ⟨q, x, rfl, hp⟩ := h
  exact ⟨q, x, rfl, hp⟩

theorem Follows.retry (h : Follows o p f u) :
    Follows o { p with retried := true } ((delay .retry f).setT { f.t with retried := true }) (delay .retry u) := by
  obtain ⟨q, x, rfl, hp⟩ := h
  exact ⟨q, { x with retried := true }, rfl, ⟨hp.1, hp.2, rfl, hp.4⟩⟩

theorem Follows.storeOffset (h : Follows o p f u) (bytes : List Byte) : Follows o p (storeOffset bytes f) (storeOffset bytes u) := by
  obtain ⟨q, x, rfl, hp⟩ := h
  cases bytes <;> exact ⟨q, x, rfl, hp⟩

/-- At the return only the transient registers differ. -/
theorem Follows.ret (h : Follows o p f u) (op : OpName) (r : Result) : sameButTransient (ret op r f) (ret op r u) := by
  obtain ⟨q, x, rfl, -⟩ := h
  rfl

theorem Follows.retNone (h : Follows o p f u) (op : OpName) : sameButTransient (retNone op f) (retNone op u) := by
  obtain ⟨q, x, rfl, -⟩ := h
  rfl

end

/-- An operation that began and was led to its end by the sequencer. -/
theorem begun_of_leads {i : Instr} {s b e t : State} (hbegin : begin i s = .next b) (hlead : Leads b e)
    (hend : sameButTransient e t) : ∃ b n, begin i s = .next b ∧ sameButTransient (seqRun n b) t := by
  obtain ⟨n, rfl⟩ := hlead
  exact ⟨b, n, hbegin, hend⟩

/-! ## CMD and WAITRESP -/

/-- Settles O57: the framing operation's reply comes back to its caller, the host. -/
theorem sequencerRunsTheFramingOperations : Obligations.SequencerRunsTheFramingOperations := by
  intro s t i hidle hop hexec
  obtain rfl := performed_of_exec hidle.1 hexec
  rcases hop with ⟨opcode, payload, cap, hold, rfl⟩ | ⟨tmo, hold, rfl⟩
  · have hmode := mode_of_hostBus hidle.1 hexec
    have hlen : ¬ Config.maxReqPayload < payload.length := fun hlong => by
      have hrun := run_eq_next_of_hostBus hidle.1 hexec
      rw [if_pos hlong] at hrun
      cases hrun
    obtain ⟨f, hf, hlead⟩ := (Follows.setOp .cmd s).startCmd (by decide) ⟨opcode, payload, cap, hold⟩
    obtain ⟨r, u, hrun⟩ : ∃ r u, runCmd ⟨opcode, payload, cap, hold⟩ s = (r, u) := ⟨_, _, rfl⟩
    rw [hrun] at hf hlead
    rw [performed_cmd_of_run hrun]
    have hback : backToCaller r f = ret .cmd (Result.ofReply r) f := by rw [backToCaller, hf.op]
    exact begun_of_leads ((hostBus_of_idle hidle.1 hmode _).trans (if_neg hlen)) (hback ▸ hlead) (hf.ret _ _)
  · have hmode := mode_of_hostBus hidle.1 hexec
    obtain ⟨f, hf, -, hlead⟩ := (Follows.setOp .waitresp s).startWait (by decide) tmo hold
    obtain ⟨r, u, hrun⟩ : ∃ r u, waitResp tmo hold s = (r, u) := ⟨_, _, rfl⟩
    rw [hrun] at hf hlead
    rw [performed_waitresp_of_run hrun]
    have hback : backToCaller r f = ret .waitresp (Result.ofReply r) f := by rw [backToCaller, hf.op]
    exact begun_of_leads (hostBus_of_idle hidle.1 hmode _) (hback ▸ hlead) (hf.ret _ _)

/-! ## The retry policy -/

/-- If one attempt event by event ends as the whole attempt does, so does the policy of at most two (R191, R212, R258). -/
theorem attempts_leads {o : OpName} {body : State → Bool × State} {start : BitVec 2 → State → State} {won lost : State → State}
    (hbody : ∀ {p f u} (a : BitVec 2), Follows o p f u → ∃ p' f', p'.attempt = a ∧ Follows o p' f' (body (startAttempt a u)).2 ∧
      Leads (start a f) (if (body (startAttempt a u)).1 then won f'
        else if f'.t.attempt.toNat < Config.maxAttempts then start (f'.t.attempt + 1) f' else lost f'))
    {p : Transient} {f u : State} (h : Follows o p f u) :
    ∃ p' f', Follows o p' f' (attempts body Config.maxAttempts 1 u).2 ∧
      Leads (start 1 f) (if (attempts body Config.maxAttempts 1 u).1 then won f' else lost f') := by
  obtain ⟨p1, f1, ha1, hf1, hlead1⟩ := hbody 1 h
  rcases hb1 : body (startAttempt 1 u) with ⟨_ | _, u1⟩ <;> rw [hb1] at hf1 hlead1
  · have hrun : attempts body Config.maxAttempts 1 u = attempts body 1 2 u1 := attempts_of_false hb1
    have ht1 : f1.t.attempt = 1 := hf1.progress.attempt.trans ha1
    rw [ht1] at hlead1
    obtain ⟨p2, f2, ha2, hf2, hlead2⟩ := hbody 2 hf1
    have ht2 : f2.t.attempt = 2 := hf2.progress.attempt.trans ha2
    rw [ht2] at hlead2
    refine ⟨p2, f2, ?_⟩
    rw [hrun]
    rcases hb2 : body (startAttempt 2 u1) with ⟨_ | _, u2⟩ <;> rw [hb2] at hf2 hlead2
    · have hrun2 : attempts body 1 2 u1 = (false, u2) := attempts_of_false hb2
      rw [hrun2]
      exact ⟨hf2, Leads.trans hlead1 hlead2⟩
    · have hrun2 : attempts body 1 2 u1 = (true, u2) := attempts_of_true hb2
      rw [hrun2]
      exact ⟨hf2, Leads.trans hlead1 hlead2⟩
  · have hrun : attempts body Config.maxAttempts 1 u = (true, u1) := attempts_of_true hb1
    rw [hrun]
    exact ⟨p1, f1, hf1, hlead1⟩

/-! ## INIT -/

section
variable {s : State}

theorem initNext_disabled (h : s.t.step = 0) (p : List Byte) :
    initNext (.ok p) s = startCmd (cRegStart s.cfg) (setStep 1 s) := by simp [initNext, h]

theorem initNext_cancelled {e : ProtocolError} (h : s.t.step = 0) (hcancel : isCancel s.cfg (.err e) = true)
    (hfirst : s.t.retried = false) :
    initNext (.err e) s = startCmd (cDisableTouch s.cfg) ((delay .retry s).setT { s.t with retried := true }) := by
  simp [initNext, h, hcancel, hfirst]

theorem initNext_failed {e : ProtocolError} (h : s.t.step = 0 → isCancel s.cfg (.err e) = true → s.t.retried = true) :
    initNext (.err e) s = initStepFailed s := by
  by_cases h0 : s.t.step = 0
  · have hno : (isCancel s.cfg (.err e) && !s.t.retried) = false := by
      cases hc : isCancel s.cfg (.err e) with
      | false => rfl
      | true => simp [h h0 hc]
    simp [initNext, h0, hno]
  · rcases hn : s.t.step.toNat with _ | _ | n
    · exact absurd (BitVec.eq_of_toNat_eq hn) h0
    · simp [initNext, hn]
    · simp [initNext, hn]

theorem initNext_offset (h : s.t.step = 1) (p : List Byte) :
    initNext (.ok p) s = startCmd (cEnableTouch s.cfg) (setStep 2 (storeOffset p s)) := by simp [initNext, h]

theorem initNext_enabled (h : s.t.step = 2) (p : List Byte) :
    initNext (.ok p) s = ret .init (.bool true) (s.setInitialized true) := by simp [initNext, h]

theorem backToCaller_init {o : OpName} (h : s.op = o) (ho : o = .init) (r : Reply) : backToCaller r s = initNext r s := by
  rw [backToCaller, h, ho]

end

/-! One attempt of INIT, case by case. -/

theorem initAttempt_of_disable_err {s v : State} {e : ProtocolError} (hd : disableTouchWithCancelRetry s = (.err e, v)) :
    initAttempt s = (false, v) := by simp [initAttempt, hd]

theorem initAttempt_of_offset_err {s v w : State} {e : ProtocolError} {bytes : List Byte}
    (hd : disableTouchWithCancelRetry s = (.ok bytes, v)) (ho : regStart v = (.err e, w)) : initAttempt s = (false, w) := by
  simp [initAttempt, hd, ho]

theorem initAttempt_of_enable {s v w x : State} {r : Reply} {bytes bytes2 : List Byte}
    (hd : disableTouchWithCancelRetry s = (.ok bytes, v)) (ho : regStart v = (.ok bytes2, w))
    (he : runCmd (cEnableTouch s.cfg) w = (r, x)) : initAttempt s = (!r.isErr, x) := by
  simp [initAttempt, hd, ho, he]

section
variable {p : Transient} {f u : State}

/-- Disable-touch within INIT (R192). -/
theorem Follows.disableTouch (h : Follows .init p f u) (hstep : p.step = 0) (hfirst : p.retried = false) :
    ∃ p' f', p'.attempt = p.attempt ∧ p'.step = 0 ∧ Follows .init p' f' (disableTouchWithCancelRetry u).2 ∧
      Leads (Machine.startCmd (cDisableTouch u.cfg) f) (if (disableTouchWithCancelRetry u).1.isErr then initStepFailed f'
        else Machine.startCmd (cRegStart f'.cfg) (Machine.setStep 1 f')) := by
  obtain ⟨f1, hf1, hlead1⟩ := h.startCmd (by decide) (cDisableTouch u.cfg)
  have hcfg1 := (runCmd_bus (cDisableTouch u.cfg) u).cfg
  have ht1 := hf1.progress
  unfold disableTouchWithCancelRetry
  rcases hrun1 : runCmd (cDisableTouch u.cfg) u with ⟨r1, u1⟩
  rw [hrun1] at hf1 hlead1 hcfg1
  rw [backToCaller_init hf1.op rfl] at hlead1
  dsimp only
  cases r1 with
  | ok bytes =>
    rw [initNext_disabled (ht1.step.trans hstep)] at hlead1
    exact ⟨p, f1, rfl, hstep, hf1, hlead1⟩
  | err e =>
    have hf1cfg : f1.cfg = u.cfg := hf1.cfg.trans hcfg1
    by_cases hcancel : isCancel u.cfg (.err e) = true
    · rw [if_pos hcancel]
      rw [initNext_cancelled (ht1.step.trans hstep) (hf1cfg ▸ hcancel) (ht1.retried.trans hfirst), hf1cfg] at hlead1
      obtain ⟨f2, hf2, hlead2⟩ := hf1.retry.startCmd (by decide) (cDisableTouch u.cfg)
      have ht2 := hf2.progress
      rcases hrun2 : runCmd (cDisableTouch u.cfg) (delay .retry u1) with ⟨r2, u2⟩
      rw [hrun2] at hf2 hlead2
      rw [backToCaller_init hf2.op rfl] at hlead2
      refine ⟨{ p with retried := true }, f2, rfl, hstep, hf2, hlead1.trans ?_⟩
      cases r2 with
      | ok bytes =>
        rw [initNext_disabled (ht2.step.trans hstep)] at hlead2
        exact hlead2
      | err e =>
        rw [initNext_failed fun _ _ => ht2.retried] at hlead2
        exact hlead2
    · rw [if_neg hcancel]
      rw [initNext_failed fun _ hc => absurd (hf1cfg ▸ hc) hcancel] at hlead1
      exact ⟨p, f1, rfl, hstep, hf1, hlead1⟩

/-- One attempt of INIT (R191): the first failing command ends it. -/
theorem Follows.initAttempt (h : Follows .init p f u) (a : BitVec 2) :
    ∃ p' f', p'.attempt = a ∧ Follows .init p' f' (initAttempt (Machine.startAttempt a u)).2 ∧
      Leads (startInitAttempt a f) (if (Machine.initAttempt (Machine.startAttempt a u)).1
        then Machine.ret .init (.bool true) (f'.setInitialized true) else initStepFailed f') := by
  have hstart := h.startAttempt a
  have hcfg : f.cfg = (Machine.startAttempt a u).cfg := h.cfg
  unfold startInitAttempt
  rw [hcfg]
  generalize Machine.startAttempt a u = v at hstart ⊢
  obtain ⟨p1, f1, ha1, -, hf1, hlead1⟩ := hstart.disableTouch rfl rfl
  have hcfg1 := (busRel_busOnly.disableTouch v).cfg
  rcases hd : disableTouchWithCancelRetry v with ⟨r1, v1⟩
  rw [hd] at hf1 hlead1 hcfg1
  cases r1 with
  | err e =>
    rw [initAttempt_of_disable_err hd]
    exact ⟨p1, f1, ha1, hf1, hlead1⟩
  | ok bytes1 =>
    obtain ⟨f2, hf2, hlead2⟩ := (hf1.setStep 1).startCmd (by decide) (cRegStart f1.cfg)
    have hstep2 : f2.t.step = 1 := hf2.progress.step
    have hcfg2 := (runCmd_bus (cRegStart v1.cfg) v1).cfg
    rw [hf1.cfg] at hf2 hlead2 hlead1
    rcases hrun2 : runCmd (cRegStart v1.cfg) v1 with ⟨r2, v2⟩
    rw [hrun2] at hf2 hlead2 hcfg2
    rw [backToCaller_init hf2.op rfl] at hlead2
    cases r2 with
    | err e =>
      rw [initAttempt_of_offset_err hd (regStart_of_err hrun2)]
      rw [initNext_failed fun h0 => absurd (hstep2.symm.trans h0) (by decide)] at hlead2
      refine ⟨_, f2, ?_, hf2, Leads.trans hlead1 hlead2⟩
      exact ha1
    | ok bytes2 =>
      have hf2cfg : f2.cfg = v.cfg := hf2.cfg.trans (hcfg2.trans hcfg1)
      rw [initNext_offset hstep2, hf2cfg] at hlead2
      obtain ⟨f3, hf3, hlead3⟩ := ((hf2.storeOffset bytes2).setStep 2).startCmd (by decide) (cEnableTouch v.cfg)
      have hstep3 : f3.t.step = 2 := hf3.progress.step
      rcases hrun3 : runCmd (cEnableTouch v.cfg) (Machine.storeOffset bytes2 v2) with ⟨r3, v3⟩
      rw [hrun3] at hf3 hlead3
      rw [backToCaller_init hf3.op rfl] at hlead3
      rw [initAttempt_of_enable hd (regStart_of_ok hrun2) hrun3]
      have hlead := (Leads.trans hlead1 hlead2).trans hlead3
      cases r3 with
      | err e =>
        rw [initNext_failed fun h0 => absurd (hstep3.symm.trans h0) (by decide)] at hlead
        refine ⟨_, f3, ?_, hf3, hlead⟩
        exact ha1
      | ok bytes3 =>
        rw [initNext_enabled hstep3] at hlead
        refine ⟨_, f3, ?_, hf3, hlead⟩
        exact ha1

end

theorem init_leads {width height : Half} {rotated : Bool} (s : State) : ∃ e,
    Leads (startInitAttempt 1 ((initEntry width height rotated s).setOp .init)) e ∧
    sameButTransient e (ret .init (.bool (init width height rotated s).1) (init width height rotated s).2) := by
  have hentry : Follows .init s.t ((initEntry width height rotated s).setOp .init) (initEntry width height rotated s) :=
    Follows.setOp .init (initEntry width height rotated s)
  obtain ⟨p, f, hf, hlead⟩ := attempts_leads (start := startInitAttempt) (won := fun f => ret .init (.bool true) (f.setInitialized true))
    (lost := fun f => ret .init (.bool false) f) (fun a h => h.initAttempt a) hentry
  obtain ⟨b, u, hrun⟩ : ∃ b u, attempts initAttempt Config.maxAttempts 1 (initEntry width height rotated s) = (b, u) := ⟨_, _, rfl⟩
  rw [hrun] at hf hlead
  refine ⟨_, hlead, ?_⟩
  unfold init
  rw [hrun]
  cases b with
  | false => exact hf.ret _ _
  | true => exact (hf.setInitialized true).ret _ _

/-! ## SETREG and REGDUMP -/

theorem setReg_leads (reg value : Byte) (s : State) : ∃ e, Leads (beginSetreg reg value s) e ∧
    sameButTransient e (ret .setreg (setReg reg value s).1 (setReg reg value s).2) := by
  cases hinit : s.initialized with
  | false =>
    rw [setReg_of_uninitialized hinit, beginSetreg, if_neg (by simp [hinit])]
    exact ⟨_, .refl _, rfl⟩
  | true =>
    obtain ⟨f, hf, hlead⟩ := ((Follows.setOp .setreg s).setStep 0).startCmd (by decide) (cSetRegister s reg value)
    obtain ⟨r, u, hrun⟩ : ∃ r u, runCmd (cSetRegister s reg value) s = (r, u) := ⟨_, _, rfl⟩
    rw [hrun] at hf hlead
    rw [setReg_of_run hinit hrun, beginSetreg, if_pos hinit]
    have hback : backToCaller r f = ret .setreg (Result.ofSetreg r) f := by rw [backToCaller, hf.op]
    exact ⟨_, hback ▸ hlead, hf.ret _ _⟩

theorem regdumpNext_of_nil {s : State} (h : s.t.todo = []) (r : Reply) :
    regdumpNext r s = retNone .regdump (s.sinkPut (.reply r)) := by
  simp [regdumpNext, h]

theorem regdumpNext_of_cons {s : State} {reg : Byte} {rest : List Byte} (h : s.t.todo = reg :: rest) (r : Reply) :
    regdumpNext r s = startCmd (cReadRegister (s.sinkPut (.reply r)) reg)
      (setStep 1 ((s.sinkPut (.reply r)).setT { (s.sinkPut (.reply r)).t with todo := rest })) := by
  simp [regdumpNext, h]

theorem backToCaller_regdump {o : OpName} {s : State} (h : s.op = o) (ho : o = .regdump) (r : Reply) :
    backToCaller r s = regdumpNext r s := by
  rw [backToCaller, h, ho]

/-- The registers still to read, one command each (R197). -/
theorem Follows.dumpRegisters (regs : List Byte) {p : Transient} {f u : State} (h : Follows .regdump p f u) (htodo : p.todo = regs)
    (r : Reply) : ∃ e, Leads (regdumpNext r f) e ∧
      sameButTransient e (Machine.retNone .regdump (Machine.dumpRegisters regs (u.sinkPut (.reply r)))) := by
  induction regs generalizing p f u r with
  | nil =>
    rw [regdumpNext_of_nil (h.progress.todo.trans htodo)]
    exact ⟨_, .refl _, (h.sinkPut _).retNone _⟩
  | cons reg rest ih =>
    rw [regdumpNext_of_cons (h.progress.todo.trans htodo)]
    have hput := h.sinkPut (.reply r)
    have hcmd : cReadRegister (f.sinkPut (.reply r)) reg = cReadRegister (u.sinkPut (.reply r)) reg := by
      rw [cReadRegister, cReadRegister, hput.cfg, hput.offset]
    rw [hcmd]
    obtain ⟨f', hf', hlead⟩ := ((hput.setT { (f.sinkPut (.reply r)).t with todo := rest }).setStep 1).startCmd (by decide)
      (cReadRegister (u.sinkPut (.reply r)) reg)
    obtain ⟨e, hlater, hend⟩ := ih hf' rfl (runCmd (cReadRegister (u.sinkPut (.reply r)) reg) (u.sinkPut (.reply r))).1
    rw [backToCaller_regdump hf'.op rfl] at hlead
    exact ⟨e, hlead.trans hlater, hend⟩

theorem regDump_leads (s : State) : ∃ e, Leads (beginRegdump s) e ∧ sameButTransient e (retNone .regdump (regDump s)) := by
  cases hinit : s.initialized with
  | false =>
    rw [regDump_of_uninitialized hinit, beginRegdump, if_neg (by simp [hinit])]
    exact ⟨_, .refl _, rfl⟩
  | true =>
    have hput : Follows .regdump s.t ((s.sinkPut (.offset s.offset)).setOp .regdump) (s.sinkPut (.offset s.offset)) :=
      Follows.setOp .regdump (s.sinkPut (.offset s.offset))
    obtain ⟨f, hf, hlead⟩ := ((hput.setT { s.t with todo := s.cfg.dumpRegs }).setStep 0).startCmd (by decide) (cGetVersion s.cfg)
    obtain ⟨r, u, hrun⟩ : ∃ r u, runCmd (cGetVersion s.cfg) (s.sinkPut (.offset s.offset)) = (r, u) := ⟨_, _, rfl⟩
    rw [hrun] at hf hlead
    rw [backToCaller_regdump hf.op rfl] at hlead
    obtain ⟨e, hlater, hend⟩ := hf.dumpRegisters s.cfg.dumpRegs rfl r
    rw [regDump_of_run hinit hrun, beginRegdump, if_pos hinit]
    exact ⟨e, Leads.trans hlead hlater, hend⟩

/-- Settles O58: each operation's sub-operations come back to it one after another. -/
theorem sequencerRunsTheSessionOperations : Obligations.SequencerRunsTheSessionOperations := by
  intro s t i hidle hop hexec
  obtain rfl := performed_of_exec hidle.1 hexec
  rcases hop with ⟨width, height, rotated, rfl⟩ | ⟨reg, value, rfl⟩ | rfl
  · obtain ⟨e, hlead, hend⟩ := init_leads (width := width) (height := height) (rotated := rotated) s
    exact begun_of_leads (hostBus_of_idle hidle.1 (mode_of_hostBus hidle.1 hexec) _) hlead hend
  · obtain ⟨e, hlead, hend⟩ := setReg_leads reg value s
    exact begun_of_leads (hostBus_of_idle hidle.1 (mode_of_hostBus hidle.1 hexec) _) hlead hend
  · obtain ⟨e, hlead, hend⟩ := regDump_leads s
    exact begun_of_leads (hostBus_of_idle hidle.1 (mode_of_hostBus hidle.1 hexec) _) hlead hend

end Sys2Proof.Machine
end

section
/-! PROOFS. CALSTART, CALWAIT and DECODE event by event (44_calibration, 45_touch), and the response frame as the end of a wait
(10_state R26; log 19). -/

namespace Sys2Proof.Machine

/-! ## CALSTART -/

section
variable {s : State}

theorem calstartNext_disabled (h : s.t.step = 0) (p : List Byte) :
    calstartNext (.ok p) s = startCmd (cRegStart s.cfg) (setStep 1 s) := by simp [calstartNext, h]

theorem calstartNext_offset (h : s.t.step = 1) (p : List Byte) :
    calstartNext (.ok p) s = startCmd (cWriteInset (storeOffset p s)) (setStep 2 (storeOffset p s)) := by simp [calstartNext, h]

theorem calstartNext_written (h : s.t.step = 2) (p : List Byte) :
    calstartNext (.ok p) s = startCmd (cCalibrateMode s.cfg s.cfg.calType) (setStep 3 s) := by simp [calstartNext, h]

theorem calstartNext_held (h : s.t.step = 3) (p : List Byte) :
    calstartNext (.ok p) s = ret .calstart (.bool true) (s.setPointIndex 0) := by simp [calstartNext, h]

theorem calstartNext_failed (e : ProtocolError) (s : State) : calstartNext (.err e) s =
    if s.t.attempt.toNat < Config.maxAttempts then startCalAttempt (s.t.attempt + 1) s
    else ret .calstart (.bool false) (s.setPointIndex idleIndex) := by
  unfold calstartNext
  rcases s.t.step.toNat with _ | _ | _ | n <;> rfl

theorem backToCaller_calstart {o : OpName} (h : s.op = o) (ho : o = .calstart) (r : Reply) :
    backToCaller r s = calstartNext r s := by
  rw [backToCaller, h, ho]

end

/-! One attempt of CALSTART, case by case. -/

theorem calStartAttempt_of_disable_err {s v : State} {e : ProtocolError} (hd : runCmd (cDisableTouch s.cfg) s = (.err e, v)) :
    calStartAttempt s = (false, v) := by simp [calStartAttempt, hd]

theorem calStartAttempt_of_offset_err {s v w : State} {e : ProtocolError} {bytes : List Byte}
    (hd : runCmd (cDisableTouch s.cfg) s = (.ok bytes, v)) (ho : regStart v = (.err e, w)) : calStartAttempt s = (false, w) := by
  simp [calStartAttempt, hd, ho]

theorem calStartAttempt_of_write_err {s v w x : State} {e : ProtocolError} {bytes bytes2 : List Byte}
    (hd : runCmd (cDisableTouch s.cfg) s = (.ok bytes, v)) (ho : regStart v = (.ok bytes2, w))
    (hw : runCmd (cWriteInset w) w = (.err e, x)) : calStartAttempt s = (false, x) := by
  simp [calStartAttempt, hd, ho, hw]

theorem calStartAttempt_of_mode {s v w x y : State} {r : Reply} {bytes bytes2 bytes3 : List Byte}
    (hd : runCmd (cDisableTouch s.cfg) s = (.ok bytes, v)) (ho : regStart v = (.ok bytes2, w))
    (hw : runCmd (cWriteInset w) w = (.ok bytes3, x)) (hm : runCmd (cCalibrateMode s.cfg s.cfg.calType) x = (r, y)) :
    calStartAttempt s = (!r.isErr, y) := by
  simp [calStartAttempt, hd, ho, hw, hm]

section
variable {p : Transient} {f u : State}

/-- One attempt of CALSTART (R212): the first failing command ends it. -/
theorem Follows.calAttempt (h : Follows .calstart p f u) (a : BitVec 2) :
    ∃ p' f', p'.attempt = a ∧ Follows .calstart p' f' (calAttempt (Machine.startAttempt a u)).2 ∧
      Leads (startCalAttempt a f) (if (Machine.calAttempt (Machine.startAttempt a u)).1
        then Machine.ret .calstart (.bool true) (f'.setPointIndex 0)
        else if f'.t.attempt.toNat < Config.maxAttempts then startCalAttempt (f'.t.attempt + 1) f'
        else Machine.ret .calstart (.bool false) (f'.setPointIndex idleIndex)) := by
  have hstart := (h.startAttempt a).setPointIndex idleIndex
  have hcfg : f.cfg = ((Machine.startAttempt a u).setPointIndex idleIndex).cfg := h.cfg
  unfold startCalAttempt Machine.calAttempt
  rw [hcfg]
  generalize (Machine.startAttempt a u).setPointIndex idleIndex = v at hstart ⊢
  obtain ⟨f1, hf1, hlead1⟩ := hstart.startCmd (by decide) (cDisableTouch v.cfg)
  have hstep1 : f1.t.step = 0 := hf1.progress.step
  have hcfg1 := (runCmd_bus (cDisableTouch v.cfg) v).cfg
  rcases hd : runCmd (cDisableTouch v.cfg) v with ⟨r1, v1⟩
  rw [hd] at hf1 hlead1 hcfg1
  rw [backToCaller_calstart hf1.op rfl] at hlead1
  cases r1 with
  | err e =>
    rw [calStartAttempt_of_disable_err hd]
    rw [calstartNext_failed] at hlead1
    refine ⟨_, f1, ?_, hf1, hlead1⟩
    rfl
  | ok bytes1 =>
    rw [calstartNext_disabled hstep1, hf1.cfg] at hlead1
    obtain ⟨f2, hf2, hlead2⟩ := (hf1.setStep 1).startCmd (by decide) (cRegStart v1.cfg)
    have hstep2 : f2.t.step = 1 := hf2.progress.step
    have hcfg2 := (runCmd_bus (cRegStart v1.cfg) v1).cfg
    rcases ho : runCmd (cRegStart v1.cfg) v1 with ⟨r2, v2⟩
    rw [ho] at hf2 hlead2 hcfg2
    rw [backToCaller_calstart hf2.op rfl] at hlead2
    replace hlead2 := Leads.trans hlead1 hlead2
    cases r2 with
    | err e =>
      rw [calStartAttempt_of_offset_err hd (regStart_of_err ho)]
      rw [calstartNext_failed] at hlead2
      refine ⟨_, f2, ?_, hf2, hlead2⟩
      rfl
    | ok bytes2 =>
      have hstored := hf2.storeOffset bytes2
      have hinset : cWriteInset (Machine.storeOffset bytes2 f2) = cWriteInset (Machine.storeOffset bytes2 v2) := by
        rw [cWriteInset, cWriteInset, cSetRegister, cSetRegister, hstored.cfg, hstored.offset]
      rw [calstartNext_offset hstep2, hinset] at hlead2
      obtain ⟨f3, hf3, hlead3⟩ := (hstored.setStep 2).startCmd (by decide) (cWriteInset (Machine.storeOffset bytes2 v2))
      have hstep3 : f3.t.step = 2 := hf3.progress.step
      have hcfg3 := (runCmd_bus (cWriteInset (Machine.storeOffset bytes2 v2)) (Machine.storeOffset bytes2 v2)).cfg
      rw [storeOffset_cfg] at hcfg3
      rcases hw : runCmd (cWriteInset (Machine.storeOffset bytes2 v2)) (Machine.storeOffset bytes2 v2) with ⟨r3, v3⟩
      rw [hw] at hf3 hlead3 hcfg3
      rw [backToCaller_calstart hf3.op rfl] at hlead3
      replace hlead3 := Leads.trans hlead2 hlead3
      cases r3 with
      | err e =>
        rw [calStartAttempt_of_write_err hd (regStart_of_ok ho) hw]
        rw [calstartNext_failed] at hlead3
        refine ⟨_, f3, ?_, hf3, hlead3⟩
        rfl
      | ok bytes3 =>
        have hf3cfg : f3.cfg = v.cfg := hf3.cfg.trans (hcfg3.trans (hcfg2.trans hcfg1))
        rw [calstartNext_written hstep3, hf3cfg] at hlead3
        obtain ⟨f4, hf4, hlead4⟩ := (hf3.setStep 3).startCmd (by decide) (cCalibrateMode v.cfg v.cfg.calType)
        have hstep4 : f4.t.step = 3 := hf4.progress.step
        rcases hm : runCmd (cCalibrateMode v.cfg v.cfg.calType) v3 with ⟨r4, v4⟩
        rw [hm] at hf4 hlead4
        rw [backToCaller_calstart hf4.op rfl] at hlead4
        replace hlead4 := Leads.trans hlead3 hlead4
        rw [calStartAttempt_of_mode hd (regStart_of_ok ho) hw hm]
        cases r4 with
        | err e =>
          rw [calstartNext_failed] at hlead4
          refine ⟨_, f4, ?_, hf4, hlead4⟩
          rfl
        | ok bytes4 =>
          rw [calstartNext_held hstep4] at hlead4
          refine ⟨_, f4, ?_, hf4, hlead4⟩
          rfl

end

theorem calStart_leads (s : State) : ∃ e, Leads (beginCalstart s) e ∧
    sameButTransient e (ret .calstart (.bool (calStart s).1) (calStart s).2) := by
  cases hinit : s.initialized with
  | false =>
    rw [calStart_of_uninitialized hinit, beginCalstart, if_neg (by simp [hinit])]
    exact ⟨_, .refl _, rfl⟩
  | true =>
    obtain ⟨p, f, hf, hlead⟩ := attempts_leads (start := startCalAttempt) (won := fun f => ret .calstart (.bool true) (f.setPointIndex 0))
      (lost := fun f => ret .calstart (.bool false) (f.setPointIndex idleIndex)) (fun a h => h.calAttempt a) (Follows.setOp .calstart s)
    obtain ⟨b, u, hrun⟩ : ∃ b u, attempts calAttempt Config.maxAttempts 1 s = (b, u) := ⟨_, _, rfl⟩
    rw [hrun] at hf hlead
    rw [calStart_of_attempts hinit hrun, beginCalstart, if_pos hinit]
    refine ⟨_, hlead, ?_⟩
    cases b with
    | false => exact (hf.setPointIndex idleIndex).ret _ _
    | true => exact (hf.setPointIndex 0).ret _ _

/-! ## CALWAIT -/

section
variable {s : State}

theorem calwaitNext_failed (e : ProtocolError) (s : State) : calwaitNext (.err e) s = ret .calwait .none (calFail s) := by
  unfold calwaitNext
  rcases s.t.step.toNat with _ | _ | n <;> rfl

theorem calwaitNext_more (h : s.t.step = 0) (hmore : (s.setPointIndex (s.pointIndex + 1)).active = true) (p : List Byte) :
    calwaitNext (.ok p) s = ret .calwait (.more true) (s.setPointIndex (s.pointIndex + 1)) := by
  have hzero : s.t.step.toNat = 0 := by rw [h]; rfl
  unfold calwaitNext
  rw [hzero]
  exact if_pos hmore

theorem calwaitNext_last (h : s.t.step = 0) (hlast : (s.setPointIndex (s.pointIndex + 1)).active = false) (p : List Byte) :
    calwaitNext (.ok p) s = startWait s.t.tmo true (setStep 1 (s.setPointIndex (s.pointIndex + 1))) := by
  have hzero : s.t.step.toNat = 0 := by rw [h]; rfl
  unfold calwaitNext
  rw [hzero]
  exact if_neg fun hact => absurd (hlast.symm.trans hact) (by simp)

theorem calwaitNext_committed (h : s.t.step = 1) (p : List Byte) :
    calwaitNext (.ok p) s = startCmd (cEnableTouch s.cfg) (setStep 2 s) := by simp [calwaitNext, h]

theorem calwaitNext_enabled (h : s.t.step = 2) (p : List Byte) : calwaitNext (.ok p) s = ret .calwait (.more false) s := by
  simp [calwaitNext, h]

theorem backToCaller_calwait {o : OpName} (h : s.op = o) (ho : o = .calwait) (r : Reply) :
    backToCaller r s = calwaitNext r s := by
  rw [backToCaller, h, ho]

end

/-- The commit wait and enable-touch (R221). -/
theorem Follows.calFinish {p : Transient} {f u : State} (h : Follows .calwait p f u) (hstep : p.step = 1) (tmo : Half) :
    ∃ e, Leads (Machine.startWait tmo true f) e ∧
      sameButTransient e (Machine.ret .calwait (Result.ofCalwait (calFinish tmo u).1) (calFinish tmo u).2) := by
  obtain ⟨f1, hf1, -, hlead1⟩ := h.startWait (by decide) tmo true
  have hstep1 : f1.t.step = 1 := hf1.progress.step.trans hstep
  have hcfg1 := (waitResp_bus tmo true u).cfg
  rcases hw : waitResp tmo true u with ⟨r1, u1⟩
  rw [hw] at hf1 hlead1 hcfg1
  rw [backToCaller_calwait hf1.op rfl] at hlead1
  cases r1 with
  | err e =>
    rw [calwaitNext_failed] at hlead1
    rw [calFinish_of_commit_err hw]
    exact ⟨_, hlead1, hf1.calFail.ret _ _⟩
  | ok bytes1 =>
    rw [calwaitNext_committed hstep1, hf1.cfg.trans hcfg1] at hlead1
    obtain ⟨f2, hf2, hlead2⟩ := (hf1.setStep 2).startCmd (by decide) (cEnableTouch u.cfg)
    have hstep2 : f2.t.step = 2 := hf2.progress.step
    rcases he : runCmd (cEnableTouch u.cfg) u1 with ⟨r2, u2⟩
    rw [he] at hf2 hlead2
    rw [backToCaller_calwait hf2.op rfl] at hlead2
    replace hlead2 := Leads.trans hlead1 hlead2
    cases r2 with
    | err e =>
      rw [calwaitNext_failed] at hlead2
      rw [calFinish_of_enable_err hw he]
      exact ⟨_, hlead2, hf2.calFail.ret _ _⟩
    | ok bytes2 =>
      rw [calwaitNext_enabled hstep2] at hlead2
      rw [calFinish_of_ok hw he]
      exact ⟨_, hlead2, hf2.ret _ _⟩

theorem calWait_leads (tmo : Half) (s : State) : ∃ e, Leads (beginCalwait tmo s) e ∧
    sameButTransient e (ret .calwait (Result.ofCalwait (calWait tmo s).1) (calWait tmo s).2) := by
  cases hact : s.active with
  | false =>
    rw [calWait_of_inactive hact, beginCalwait, if_neg (by simp [hact])]
    exact ⟨_, .refl _, rfl⟩
  | true =>
    obtain ⟨f1, hf1, htmo, hlead1⟩ := ((Follows.setOp .calwait s).setStep 0).startWait (by decide) tmo true
    have hstep1 : f1.t.step = 0 := hf1.progress.step
    have hindex := (waitResp_bus tmo true s).pointIndex
    rw [beginCalwait, if_pos hact]
    rcases hw : waitResp tmo true s with ⟨r1, u1⟩
    rw [hw] at hf1 hlead1 hindex
    rw [backToCaller_calwait hf1.op rfl] at hlead1
    cases r1 with
    | err e =>
      rw [calwaitNext_failed] at hlead1
      rw [calWait_of_err hact hw]
      exact ⟨_, hlead1, hf1.calFail.ret _ _⟩
    | ok bytes1 =>
      have hf1index : f1.pointIndex = s.pointIndex := hf1.pointIndex.trans hindex
      have hlt := (active_iff s).1 hact
      by_cases hmore : s.pointIndex.toNat < 3
      · have hnext : (f1.setPointIndex (f1.pointIndex + 1)).active = true := by
          rw [active_iff, State.setPointIndex_pointIndex, hf1index, BitVec.toNat_add]
          exact lt_of_le_of_lt (Nat.mod_le _ _) (Nat.add_lt_add_right hmore 1)
        rw [calwaitNext_more hstep1 hnext, hf1index] at hlead1
        rw [calWait_of_more hact hw hmore]
        exact ⟨_, hlead1, (hf1.setPointIndex _).ret _ _⟩
      · have hlast : s.pointIndex = 3 := BitVec.eq_of_toNat_eq (by change s.pointIndex.toNat = 3; omega)
        have hfour : f1.pointIndex + 1 = 4 := by rw [hf1index, hlast]; rfl
        rw [calwaitNext_last hstep1 (by rw [hfour]; rfl), htmo, hfour] at hlead1
        obtain ⟨e, hlater, hend⟩ := ((hf1.setPointIndex 4).setStep 1).calFinish rfl tmo
        rw [calWait_of_last hlast hw]
        exact ⟨e, Leads.trans hlead1 hlater, hend⟩

/-- Settles O59: the sub-operations of each come back to it one after another. -/
theorem sequencerRunsTheCalibration : Obligations.SequencerRunsTheCalibration := by
  intro s t i hidle hop hexec
  obtain rfl := performed_of_exec hidle.1 hexec
  rcases hop with rfl | ⟨tmo, rfl⟩
  · obtain ⟨e, hlead, hend⟩ := calStart_leads s
    exact begun_of_leads (whenIdle_of_idle hidle.1 _) hlead hend
  · obtain ⟨e, hlead, hend⟩ := calWait_leads tmo s
    exact begun_of_leads (whenIdle_of_idle hidle.1 _) hlead hend

end Sys2Proof.Machine
end

section
/-! PROOFS. DECODE event by event (45_touch; log 27). -/

namespace Sys2Proof.Machine

/-! ## The timer between two polls -/

theorem recvByte_timer (s : State) : (recvByte s).2.env.timer = s.env.timer := by
  unfold recvByte xchgD xchg chipByte
  dsimp only
  split <;> rfl

theorem recvPayload_timer (n : Nat) (s : State) : (recvPayload n s).2.env.timer = s.env.timer := by
  induction n generalizing s with
  | zero => rfl
  | succ n ih => exact (ih (recvByte s).2).trans (recvByte_timer s)

theorem packetRound_timer (s : State) : (packetRound s).env.timer = s.env.timer := by
  obtain ⟨c, x, h⟩ := packetRound_eq s
  rw [h]
  exact recvPayload_timer Config.pktLen (select s)

/-! ## The bytes of a packet -/

theorem decodePacket_over (q : Seq) (o : OpName) (x : Transient) (pkt : List Byte) (s : State) :
    decodePacket pkt (s.over q o x) = (decodePacket pkt s).over q o x := by
  rw [decodePacket_eq, decodePacket_eq]
  rfl

section
variable (u : State) (x : Transient)

theorem seqStep_pkt_more {k : Nat} (hk : k + 1 < Config.pktLen) : ∃ y, y.pkt = (if k = 0 then [] else x.pkt) ++ [(recvByte u).1] ∧
    seqStep (u.over (.pkt k) .decode x) = (recvByte u).2.over (.pkt (k + 1)) .decode y := by
  have hstep : seqStep (u.over (.pkt k) .decode x) = stepPkt k (u.over (.pkt k) .decode x) := rfl
  rw [hstep, stepPkt, recvByte_over]
  generalize recvByte u = b
  dsimp only
  rw [if_pos hk]
  refine ⟨_, ?_, rfl⟩
  rfl

theorem seqStep_pkt_last : ∃ y, seqStep (u.over (.pkt 4) .decode x) =
    (decodePacket (x.pkt ++ [(recvByte u).1]) (unselect (recvByte u).2)).over .wait .decode y := by
  have hstep : seqStep (u.over (.pkt 4) .decode x) = stepPkt 4 (u.over (.pkt 4) .decode x) := rfl
  rw [hstep, stepPkt, recvByte_over]
  generalize recvByte u = b
  have hlast : ¬ (4 + 1 < Config.pktLen) := by decide
  dsimp only
  rw [if_neg hlast, decodePacket_eq, decodePacket_eq]
  exact ⟨_, rfl⟩

end

/-- The bytes of a packet from the `k`-th on, and its decoding (R232, R233). -/
theorem leads_pkt (n k : Nat) (hk : k + (n + 1) = 5) (u : State) (x : Transient) : ∃ y, Leads (u.over (.pkt k) .decode x)
    ((decodePacket ((if k = 0 then [] else x.pkt) ++ (recvPayload (n + 1) u).1) (unselect (recvPayload (n + 1) u).2)).over .wait
      .decode y) := by
  induction n generalizing k u x with
  | zero =>
    obtain rfl : k = 4 := by omega
    obtain ⟨y, hstep⟩ := seqStep_pkt_last u x
    exact ⟨y, .step hstep (.refl _)⟩
  | succ n ih =>
    obtain ⟨y, hy, hstep⟩ := seqStep_pkt_more u x (k := k) (show k + 1 < 5 by omega)
    obtain ⟨z, hlater⟩ := ih (k + 1) (by omega) (recvByte u).2 y
    rw [if_neg (Nat.succ_ne_zero k), hy, List.append_assoc] at hlater
    exact ⟨z, .step hstep hlater⟩

/-! ## The loop -/

theorem seqStep_poll (u : State) (x : Transient) : seqStep (u.over .wait .decode x) = stepPoll (u.over .wait .decode x) := rfl

section
variable {u : State}

theorem stepPoll_of_inactive (h : (pollSig u).1 = false) (x : Transient) :
    stepPoll (u.over .wait .decode x) = (pollSig u).2.over .idle .none x := by
  rw [stepPoll, pollSig_over]
  simp only [h]
  rfl

theorem stepPoll_of_expired (h : (pollSig u).1 = true) (ht : u.env.timer = 0) (x : Transient) :
    stepPoll (u.over .wait .decode x) = (pollExpired (pollSig u).2).2.over .idle .none x := by
  have hexpired : (pollExpired (pollSig u).2).1 = true := by
    change ((pollSig u).2.env.timer == 0) = true
    rw [pollSig_timer, ht]
    rfl
  rw [stepPoll, pollSig_over]
  simp only [h, pollExpired_over, hexpired]
  rfl

theorem stepPoll_of_packet {n : Nat} (h : (pollSig u).1 = true) (ht : u.env.timer = n + 1) (x : Transient) :
    ∃ y, stepPoll (u.over .wait .decode x) = (select (pollExpired (pollSig u).2).2).over (.pkt 0) .decode y := by
  have hrunning : (pollExpired (pollSig u).2).1 = false := by
    change ((pollSig u).2.env.timer == 0) = false
    rw [pollSig_timer, ht]
    rfl
  rw [stepPoll, pollSig_over]
  simp only [h, pollExpired_over, hrunning]
  exact ⟨_, rfl⟩

end

theorem packetRound_over (u : State) (q : Seq) (o : OpName) (y : Transient) : (packetRound u).over q o y =
    (decodePacket (recvPayload Config.pktLen (select u)).1 (unselect (recvPayload Config.pktLen (select u)).2)).over q o y := by
  unfold packetRound recvPacket
  generalize recvPayload Config.pktLen (select u) = p
  rw [decodePacket_eq, decodePacket_eq]
  rfl

/-- A round of the loop (R232). -/
theorem leads_round (u : State) (x : Transient) :
    ∃ y, Leads ((select u).over (.pkt 0) .decode x) ((packetRound u).over .wait .decode y) := by
  obtain ⟨y, h⟩ := leads_pkt 4 0 rfl (select u) x
  rw [if_pos rfl, List.nil_append] at h
  refine ⟨y, ?_⟩
  rw [packetRound_over]
  exact h

/-- DECODE's loop, an event at a time. -/
theorem leads_decode (n : Nat) {u : State} (ht : u.env.timer = n) (x : Transient) :
    ∃ y, Leads (u.over .wait .decode x) ((decodeLoop n u).over .idle .none y) := by
  have hstep := seqStep_poll u x
  induction n generalizing u x with
  | zero =>
    cases hpoll : (pollSig u).1 with
    | false =>
      rw [decodeLoop_of_inactive hpoll]
      exact ⟨x, .step (hstep.trans (stepPoll_of_inactive hpoll x)) (.refl _)⟩
    | true =>
      rw [decodeLoop_zero_of_active hpoll]
      exact ⟨x, .step (hstep.trans (stepPoll_of_expired hpoll ht x)) (.refl _)⟩
  | succ n ih =>
    cases hpoll : (pollSig u).1 with
    | false =>
      rw [decodeLoop_of_inactive hpoll]
      exact ⟨x, .step (hstep.trans (stepPoll_of_inactive hpoll x)) (.refl _)⟩
    | true =>
      rw [decodeLoop_succ_of_active hpoll]
      obtain ⟨y, hpacket⟩ := stepPoll_of_packet hpoll ht x
      obtain ⟨z, hround⟩ := leads_round (pollExpired (pollSig u).2).2 y
      have htimer : (packetRound (pollExpired (pollSig u).2).2).env.timer = n := by
        rw [packetRound_timer]
        change (pollSig u).2.env.timer - 1 = n
        rw [pollSig_timer, ht, Nat.add_sub_cancel]
      obtain ⟨w, hlater⟩ := ih htimer z (seqStep_poll _ z)
      exact ⟨w, .step (hstep.trans hpacket) (hround.trans hlater)⟩

/-- Settles O60: the loop's polls and packets, and an engine that is idle as before. -/
theorem sequencerRunsDecode : Obligations.SequencerRunsDecode := by
  intro s t hidle hexec
  obtain rfl := performed_of_exec hidle.1 hexec
  rw [performed]
  cases hen : s.decodeEnabled with
  | false => exact ⟨s, 0, if_neg (by simp [hen]), rfl⟩
  | true =>
    have htouch := decodeRun_touchOnly s
    have hseq : (decodeRun s).seq = .idle := by rw [htouch]; exact hidle.1
    have hop : (decodeRun s).op = .none := by rw [htouch]; exact hidle.2
    obtain ⟨y, hlead⟩ := leads_decode _ (u := arm s.cfg.tDec s) rfl { (arm s.cfg.tDec s).t with k := 0 }
    have hend : sameButTransient ((decodeRun s).over .idle .none y) (decodeRun s) := by
      rw [← hseq, ← hop]
      rfl
    exact begun_of_leads (if_pos hen) hlead hend

end Sys2Proof.Machine
end

section
/-! PROOFS. A response frame ends the wait of any operation as the sequencer would (10_state R26, 41_framing R144; log 19). -/

namespace Sys2Proof.Machine

/-! ## The caller does not look at the sequencer's place -/

theorem sameButK.refl (s : State) : sameButK s s := rfl

section
variable (r : Reply) (f : State) (q : Seq) (k : Byte)

theorem storeOffset_put (p : List Byte) : storeOffset p (f.put q k) = (storeOffset p f).put q k := by cases p <;> rfl

theorem ret_put (op : OpName) (v : Result) : sameButK (ret op v (f.put q k)) (ret op v f) := rfl

/-- A wait is started alike: it moves the sequencer. -/
theorem startWait_put (tmo : Half) (hold : Bool) (s : State) : startWait tmo hold (s.put q k) = startWait tmo hold s := by
  have hlatched : select (latchWait tmo hold (s.put q k)) = (select (latchWait tmo hold s)).put q 0 := rfl
  rw [startWait, hlatched, arm_put]
  rfl

theorem nextPoint_put (n : BitVec 3) (m : BitVec 3) :
    setStep m ((f.put q k).setPointIndex n) = (setStep m (f.setPointIndex n)).put q k := rfl

theorem initStepFailed_put : sameButK (initStepFailed (f.put q k)) (initStepFailed f) := by
  have hattempt : (f.put q k).t.attempt = f.t.attempt := rfl
  unfold initStepFailed
  rw [hattempt]
  split <;> rfl

theorem initNext_put : sameButK (initNext r (f.put q k)) (initNext r f) := by
  cases r with
  | err e =>
    by_cases h : f.t.step = 0 ∧ isCancel f.cfg (.err e) = true ∧ f.t.retried = false
    · obtain ⟨hstep, hcancel, hfirst⟩ := h
      rw [initNext_cancelled (s := f.put q k) hstep hcancel hfirst, initNext_cancelled hstep hcancel hfirst]
      rfl
    · have hfailed (hstep : f.t.step = 0) (hcancel : isCancel f.cfg (.err e) = true) : f.t.retried = true := by
        by_contra hfirst
        exact h ⟨hstep, hcancel, by simpa using hfirst⟩
      rw [initNext_failed (s := f.put q k) hfailed, initNext_failed hfailed]
      exact initStepFailed_put f q k
  | ok p =>
    have hstep : (f.put q k).t.step = f.t.step := rfl
    have hstored : sameButK (startCmd (cEnableTouch f.cfg) (setStep 2 (storeOffset p (f.put q k))))
        (startCmd (cEnableTouch f.cfg) (setStep 2 (storeOffset p f))) := by
      rw [storeOffset_put]
      rfl
    unfold initNext
    rw [hstep]
    rcases f.t.step.toNat with _ | _ | n
    · rfl
    · exact hstored
    · rfl

theorem calstartNext_put : sameButK (calstartNext r (f.put q k)) (calstartNext r f) := by
  cases r with
  | err e =>
    have hattempt : (f.put q k).t.attempt = f.t.attempt := rfl
    rw [calstartNext_failed, calstartNext_failed, hattempt]
    split <;> rfl
  | ok p =>
    have hstep : (f.put q k).t.step = f.t.step := rfl
    have hstored : sameButK
        (startCmd (cWriteInset (storeOffset p (f.put q k))) (setStep 2 (storeOffset p (f.put q k))))
        (startCmd (cWriteInset (storeOffset p f)) (setStep 2 (storeOffset p f))) := by
      rw [storeOffset_put]
      rfl
    unfold calstartNext
    rw [hstep]
    rcases f.t.step.toNat with _ | _ | _ | n
    · rfl
    · exact hstored
    · rfl
    · rfl

theorem calwaitNext_put : sameButK (calwaitNext r (f.put q k)) (calwaitNext r f) := by
  cases r with
  | err e =>
    rw [calwaitNext_failed, calwaitNext_failed]
    rfl
  | ok p =>
    by_cases hstep : f.t.step = 0
    · cases hactive : (f.setPointIndex (f.pointIndex + 1)).active with
      | true =>
        rw [calwaitNext_more (s := f.put q k) hstep hactive, calwaitNext_more hstep hactive]
        rfl
      | false =>
        rw [calwaitNext_last (s := f.put q k) hstep hactive, calwaitNext_last hstep hactive]
        have htmo : (f.put q k).t.tmo = f.t.tmo := rfl
        have hpoint : (f.put q k).pointIndex = f.pointIndex := rfl
        rw [htmo, hpoint, nextPoint_put, startWait_put]
        exact sameButK.refl _
    · have hput : (f.put q k).t.step = f.t.step := rfl
      unfold calwaitNext
      rw [hput]
      rcases hn : f.t.step.toNat with _ | _ | n
      · exact absurd (BitVec.eq_of_toNat_eq hn) hstep
      · rfl
      · rfl

theorem regdumpNext_put : sameButK (regdumpNext r (f.put q k)) (regdumpNext r f) := by
  have htodo : ((f.put q k).sinkPut (.reply r)).t.todo = (f.sinkPut (.reply r)).t.todo := rfl
  unfold regdumpNext
  dsimp only
  rw [htodo]
  split <;> rfl

/-- The caller goes on alike wherever the sequencer ended the framing operation. -/
theorem backToCaller_put : sameButK (backToCaller r (f.put q k)) (backToCaller r f) := by
  have hop : (f.put q k).op = f.op := rfl
  unfold backToCaller
  rw [hop]
  split
  · rfl
  · rfl
  · exact initNext_put r f q k
  · exact calstartNext_put r f q k
  · exact calwaitNext_put r f q k
  · rfl
  · exact regdumpNext_put r f q k
  all_goals rfl

end

/-! ## Where the caller leaves the sequencer -/

/-- The engine is idle, at the first byte of a request, or waits. -/
def State.between (s : State) : Prop := s.seq = .idle ∨ s.seq = .tx 0 ∨ s.seq = .wait

theorem ret_between (op : OpName) (v : Result) (s : State) : (ret op v s).between := .inl rfl

theorem startCmd_between (c : Command) (s : State) : (startCmd c s).between := .inr (.inl rfl)

theorem startWait_between (tmo : Half) (hold : Bool) (s : State) : (startWait tmo hold s).between := .inr (.inr rfl)

theorem initStepFailed_between (s : State) : (initStepFailed s).between := by
  unfold initStepFailed
  split
  · exact startCmd_between _ _
  · exact ret_between _ _ _

theorem initNext_between (r : Reply) (s : State) : (initNext r s).between := by
  unfold initNext
  split
  · exact startCmd_between _ _
  · split
    · exact startCmd_between _ _
    · exact initStepFailed_between s
  · exact startCmd_between _ _
  · exact ret_between _ _ _
  · exact initStepFailed_between s

theorem calstartNext_between (r : Reply) (s : State) : (calstartNext r s).between := by
  unfold calstartNext
  split
  · exact startCmd_between _ _
  · exact startCmd_between _ _
  · exact startCmd_between _ _
  · exact ret_between _ _ _
  · split
    · exact startCmd_between _ _
    · exact ret_between _ _ _

theorem calwaitNext_between (r : Reply) (s : State) : (calwaitNext r s).between := by
  unfold calwaitNext
  split
  · exact ret_between _ _ _
  · dsimp only
    split
    · exact ret_between _ _ _
    · exact startWait_between _ _ _
  · exact startCmd_between _ _
  · exact ret_between _ _ _

theorem regdumpNext_between (r : Reply) (s : State) : (regdumpNext r s).between := by
  unfold regdumpNext
  dsimp only
  split
  · exact startCmd_between _ _
  · exact .inl rfl

theorem backToCaller_between (r : Reply) (s : State) : (backToCaller r s).between := by
  unfold backToCaller
  split
  · exact ret_between _ _ _
  · exact ret_between _ _ _
  · exact initNext_between r s
  · exact calstartNext_between r s
  · exact calwaitNext_between r s
  · exact ret_between _ _ _
  · exact regdumpNext_between r s
  all_goals exact .inl rfl

/-! ## The response frame -/

/-- The end of the wait: the reply and the state that go back to the caller. -/
def answered (bytes : List Byte) (s : State) : Reply × State :=
  finish s.t.hold (recvFrame s.t.expOp s.t.cap (pollSig (offer bytes s)).2)

theorem respond_of_waiting {s : State} (hwait : s.seq = .wait) (hop : s.op ≠ .decode) (bytes : List Byte) :
    respond bytes s = .next (backToCaller (answered bytes s).1 (answered bytes s).2) := if_pos ⟨hwait, hop⟩

/-- The poll takes the level the chip drives, and nothing else. -/
theorem pollSig_offer (bytes : List Byte) (s : State) :
    pollSig (offer bytes s) = (true, (offerBytes bytes s).emit (.sigq true)) := by
  rw [pollSig_scripted (s := offer bytes s) rfl]
  rfl

theorem SameRegs.received {s u : State} (h : SameRegs s u) (e : Event) (t : Transient) (used rest : List Byte) :
    SameRegs s (((u.emit e).setT t).received used rest) :=
  ⟨h.1, h.2, h.3, h.4, h.5, h.6, h.7, h.8, h.9, h.10, h.11⟩

/-- The wait's end on bytes that parse (R144, R147). -/
theorem answered_of_parses {s : State} {bytes rest : List Byte} {r : Reply} (h : Parses s.t.expOp s.t.cap (bytes ++ s.env.rx) r rest) :
    ∃ f, answered bytes s = (r, f) ∧ f.op = s.op ∧ f.cs = (!r.isErr && s.t.hold && s.cs) ∧ f.env.rx = rest ∧
      f.env.sig = s.env.sig ∧ SameRegs s f := by
  obtain ⟨used, t, -, hparse⟩ := recvFrame_parses h ((offerBytes bytes s).emit (.sigq true)) rfl
  obtain ⟨v, hv, hop, hcs, hrx, hsig, hregs⟩ : ∃ v, answered bytes s = finish s.t.hold (r, v) ∧ v.op = s.op ∧ v.cs = s.cs ∧
      v.env.rx = rest ∧ v.env.sig = s.env.sig ∧ SameRegs s v := by
    have hregs : SameRegs s (offerBytes bytes s) := ⟨rfl, rfl, rfl, rfl, rfl, rfl, rfl, rfl, rfl, rfl, rfl⟩
    refine ⟨(((offerBytes bytes s).emit (.sigq true)).setT t).received used rest, ?_, rfl, rfl, rfl, rfl, hregs.received _ t used rest⟩
    rw [answered, pollSig_offer, hparse]
  have hbus := finish_bus s.t.hold (r, v)
  have henv := finish_env s.t.hold (r, v)
  have hlevel := finish_cs s.t.hold (r, v)
  rw [hcs] at hlevel
  exact ⟨_, hv, hbus.op.trans hop, hlevel, (congrArg Env.rx henv).trans hrx, (congrArg Env.sig henv).trans hsig,
    hregs.trans hbus.sameRegs⟩

/-- What the sequencer makes of the offered bytes, event by event, is what the response makes of the wait in one step. -/
theorem respond_leads {s : State} (hwait : s.seq = .wait) (hop : s.op ≠ .decode) (bytes : List Byte) :
    ∃ n, sameButK (seqRun n (offer bytes s)) (backToCaller (answered bytes s).1 (answered bytes s).2) := by
  have hpoll : (pollSig (offer bytes s)).1 = true := by rw [pollSig_offer]
  have hmoves := recvFrame_moves s.t.expOp s.t.cap (pollSig (offer bytes s)).2
  have hput : offer bytes s = (offer bytes s).put .wait s.t.k := by
    rw [← hwait]
    rfl
  obtain ⟨k', hstep⟩ := stepWait_of_active hpoll s.t.k
  have hfirst : seqStep (offer bytes s) = (pollSig (offer bytes s)).2.put .rxHdr k' := by
    rw [← hstep, ← hput, seqStep, hput]
    exact if_neg hop
  have ht : (pollSig (offer bytes s)).2.t = s.t := (pollSig_link _).t
  have hends := ends_rxHdr (pollSig (offer bytes s)).2 k'
  rw [ht] at hends
  obtain ⟨q, k, n, hn⟩ := (Ends.step hfirst hends).leads (hmoves.hold.trans (congrArg Transient.hold ht))
  refine ⟨n, ?_⟩
  rw [hn]
  exact backToCaller_put _ _ q k

theorem answered_callerOnly (bytes : List Byte) (s : State) : CallerOnly s (answered bytes s).2 := by
  have hoffer : CallerOnly s (offer bytes s) := ⟨rfl, rfl, rfl, rfl, rfl, rfl, rfl⟩
  exact ((hoffer.trans (pollSig_link _).parse.bus.callerOnly).trans (recvFrame_parse _ _ _).bus.callerOnly).trans
    (finish_bus _ _).callerOnly

/-- Settles O21: the wait's end in a host's operation, in any operation, and the frame that no one waits for. -/
theorem responseFrameEndsTheWait : Obligations.ResponseFrameEndsTheWait := by
  refine ⟨fun s len status opcode payload rest r hwait hop hparse => ?_, fun s len status opcode payload hwait hop => ?_,
    fun s len status opcode payload hno => respond_of_not_waiting hno _⟩
  · obtain ⟨f, hanswer, hfop, hcs, hrx, hsig, hregs⟩ := answered_of_parses (bytes := Config.hdr :: len :: status :: opcode :: payload) hparse
    have hdecode : s.op ≠ .decode := by rcases hop with hop | hop <;> simp [hop]
    have hrun := respond_of_waiting hwait hdecode (Config.hdr :: len :: status :: opcode :: payload)
    rw [hanswer] at hrun
    have hback : ∃ o, backToCaller r f = ret o (Result.ofReply r) f := by
      rcases hop with hop | hop
      · exact ⟨.cmd, by rw [backToCaller, hfop, hop]⟩
      · exact ⟨.waitresp, by rw [backToCaller, hfop, hop]⟩
    obtain ⟨o, hback⟩ := hback
    rw [hback] at hrun
    exact ⟨_, hrun, rfl, hcs, hrx, hsig, ret_idle _ _ _, hregs.ret _ _⟩
  · obtain ⟨n, hn⟩ := respond_leads hwait hop (Config.hdr :: len :: status :: opcode :: payload)
    have hrun := respond_of_waiting hwait hop (Config.hdr :: len :: status :: opcode :: payload)
    have hframe := answered_callerOnly (Config.hdr :: len :: status :: opcode :: payload) s
    generalize answered (Config.hdr :: len :: status :: opcode :: payload) s = p at hn hrun hframe
    exact ⟨_, n, hrun, hn, backToCaller_between _ _, (hframe.trans (backToCaller_callerOnly _ _)).sameRegs⟩

end Sys2Proof.Machine
end
